-- ==== Sys2Proof/Word.lean ====
section
/-! DEFINITION. The unit of data of ANTCODEC: a byte, and a finite byte string (00_scope.md R8, R9). -/

namespace Sys2Proof

/-- A byte, an unsigned integer 0..255 (R9). -/
abbrev Byte := BitVec 8

/-- A finite list of bytes; index 0 is the first (R9). -/
abbrev Bytes := List Byte

end Sys2Proof
end

