-- ==== Sys2Proof/Config.lean ====
section
/-! DEFINITION. The implementation parameters of ANTCODEC (00_scope.md R7, 10_state.md R47). They are arguments of the model:
a machine state carries them and no step changes them. -/

namespace Sys2Proof

/-- The parameters of R7 that are OPEN or have a default, and whether a logger is attached (60_exceptions.md R345). -/
structure Config where
  /-- `OPC_CHANNEL_TX_POWER` (92_eei_decisions.md D5). -/
  opcChannelTxPower : Byte
  /-- `OPC_TX_POWER` (D5). -/
  opcTxPower : Byte
  /-- `RESPONSE_NO_ERROR` (D6). -/
  responseNoError : Byte
  /-- `EVENT_CHANNEL_CLOSED` (D6). -/
  eventChannelClosed : Byte
  /-- `READ_CHUNK` (D17). -/
  readChunk : Nat
  /-- `POLL_INTERVAL`, a duration no rule reads (D18). -/
  pollInterval : Nat
  /-- `RESET_SETTLE`, a duration no rule reads (D18). -/
  resetSettle : Nat
  /-- `NUM_CALLERS` (D38). -/
  numCallers : Nat
  /-- Whether a logger is attached to TRACE (R345). -/
  logger : Bool
deriving DecidableEq, Repr

/-- The spec's defaults where it gives one. DESIGN CHOICE, unsafe: `READ_CHUNK = 64`, one caller, both durations 0, no logger
(assumption 6). No statement rests on these values. -/
def Config.default : Config where
  opcChannelTxPower := 0x60
  opcTxPower := 0x47
  responseNoError := 0x00
  eventChannelClosed := 0x07
  readChunk := 64
  pollInterval := 0
  resetSettle := 0
  numCallers := 1
  logger := false

/-- The 19 opcode values the source fixes (30_encoding.md R90). -/
def Config.fixedOpcodes : List Byte :=
  [0x41, 0x42, 0x51, 0x43, 0x44, 0x45, 0x46, 0x4A, 0x4B, 0x4C, 0x4D, 0x4E, 0x4F, 0x50, 0x40, 0x52, 0x3E, 0x54, 0x61]

/-- What R91, R338 and R43 ask of the parameters: the two open opcodes distinct from each other and from the 19 fixed ones,
`READ_CHUNK` and `NUM_CALLERS` at least 1. -/
def Config.wf (c : Config) : Bool :=
  decide (c.opcChannelTxPower ≠ c.opcTxPower)
    && !Config.fixedOpcodes.contains c.opcChannelTxPower
    && !Config.fixedOpcodes.contains c.opcTxPower
    && decide (1 ≤ c.readChunk) && decide (1 ≤ c.numCallers)

end Sys2Proof
end

