-- ==== Sys2Proof/Syntax.lean ====
section
/-! DEFINITION. The whole syntax: the 21 frame opcodes and the 34 command-port operations of spec/opcode_table.json, with the
kinds, fields, values and listeners their operands name. -/

namespace Sys2Proof

/-- The variant kinds, in the order that numbers them 0..20 (30_encoding.md R89, R90). -/
inductive Kind where
  | channelUnassign | channelAssign | channelId | channelPeriod | channelSearchTimeout | channelFrequency
  | channelTxPower | networkKey | txPower | systemReset | channelOpen | channelClose | channelRequest
  | channelBroadcastData | channelAcknowledgedData | channelBurstData | channelEvent | channelStatus
  | version | capabilities | serialNumber
deriving DecidableEq, Repr

/-- The field names of the variants (41_variants.md R149 to R171). -/
inductive FieldName where
  | channel | chanType | network | deviceNumber | deviceType | transType | period | timeout | frequency | power | key
  | requested | data | origOpcode | code | status | version | maxChannels | maxNetworks | stdOpts | advOpts | advOpts2
  | serial
deriving DecidableEq, Repr

/-- A field value on the command port: a number or a byte string (30_encoding.md R100). -/
inductive Value where
  | num (n : Nat)
  | bytes (bs : Bytes)
deriving DecidableEq, Repr

/-- A listener identifier (10_state.md R29). `channelL g i` is the listener function of slot i of generation g. -/
inductive ListenerId where
  | ackCollector
  | msgCollector
  | channelL (gen : Nat) (index : Nat)
  | external (n : Nat)
deriving DecidableEq, Repr

/-- One constructor for each row of spec/opcode_table.json. A frame's operand is its payload, because any length 0..9 decodes
for any opcode (30_encoding.md R96). The operands of an operation are those of 30_encoding.md R105: numbers are any natural
number (R100), and an operand the spec lets a request leave out is an Option. -/
inductive Instr where
  -- frames (30_encoding.md R90)
  | channelUnassign (payload : Bytes)
  | channelAssign (payload : Bytes)
  | channelId (payload : Bytes)
  | channelPeriod (payload : Bytes)
  | channelSearchTimeout (payload : Bytes)
  | channelFrequency (payload : Bytes)
  | channelTxPower (payload : Bytes)
  | networkKey (payload : Bytes)
  | txPower (payload : Bytes)
  | systemReset (payload : Bytes)
  | channelOpen (payload : Bytes)
  | channelClose (payload : Bytes)
  | channelRequest (payload : Bytes)
  | channelBroadcastData (payload : Bytes)
  | channelAcknowledgedData (payload : Bytes)
  | channelBurstData (payload : Bytes)
  | channelEvent (payload : Bytes)
  | channelStatus (payload : Bytes)
  | version (payload : Bytes)
  | capabilities (payload : Bytes)
  | serialNumber (payload : Bytes)
  -- codec operations (40_codec.md)
  | msgNew (opc : Nat) (bs : Bytes)
  | msgSetop (v : Nat)
  | msgSetpay (bs : Bytes)
  | msgEncode
  | msgChecksum
  | msgDecode (raw : Bytes)
  | msgResolve (opc : Nat)
  | msgResolveMr
  -- variant operations (41_variants.md)
  | varBuild (kind : Kind) (fields : List Value)
  | varGet (field : FieldName)
  | varSet (field : FieldName) (v : Value)
  -- pump operations (42_pump.md)
  | pumpStart
  | pumpStop
  | pumpReg (l : ListenerId)
  | pumpUnreg (l : ListenerId)
  | pumpWrite
  | pumpWaitack (opc : Nat)
  | pumpWaitmsg (kind : Nat)
  -- node operations (43_node.md)
  | nodeStart
  | nodeStop (reset : Option Bool)
  | nodeCaps
  | nodeSetkey (idx : Nat) (replacement : Option (Bytes × Bytes))
  | nodeFreech
  | nodeGetkey (name : Bytes)
  -- channel operations (44_channel.md)
  | chAssign (ch : Nat) (name : Bytes) (type : Nat)
  | chSetid (ch : Nat) (dev : Nat) (dtype : Nat) (ttype : Nat)
  | chSetto (ch : Nat) (v : Nat)
  | chSetper (ch : Nat) (v : Nat)
  | chSetfreq (ch : Nat) (v : Nat)
  | chOpen (ch : Nat)
  | chClose (ch : Nat)
  | chUnassign (ch : Nat)
  | chReg (ch : Nat) (cb : Nat)
  | chUnreg (ch : Nat) (cb : Nat)
deriving DecidableEq, Repr

end Sys2Proof
end

