-- ==== Sys2Proof/Machine/State.lean ====
section
/-! DEFINITION. The state of ANTCODEC as plain data (10_state.md), the messages its ports carry (60_exceptions.md R320), the
environment it calls (R336) and the inputs still to be played. -/

namespace Sys2Proof.Machine

/-! ## Faults and refusals -/

/-- The faults of 60_exceptions.md R334. `faultCaller` raises them; the caller's sequencer goes to `Faulted(F)` and the rest of the
block goes on, so a step that raises one answers a next state. No step ends in a fault: the type's use as the reason of a stop
is empty. Safe. -/
inductive Fault where
  /-- `Unwritten(MR)`: an operation read a field of `MR` that nothing has written (10_state.md R22). Safe: the spec's own fault. -/
  | unwrittenMR
  /-- A read of a capability register before a negotiation has written it (10_state.md, opening; R33). Raised only in states no run
  reaches. Safe (assumption 28). -/
  | unwrittenCapability
deriving DecidableEq, Repr

/-- Reasons to refuse an instruction. -/
inductive Refusal where
  /-- `exec` has no meaning for the instruction of this mnemonic. Raised by no arm: every instruction has its meaning. Safe. -/
  | notModelled (mnemonic : String)
deriving DecidableEq, Repr

/-! ## Messages -/

/-- A message: an opcode and a payload (00_scope.md R12). -/
structure Message where
  opcode : Byte
  payload : Bytes
deriving DecidableEq, Repr

/-- A dispatched message with its variant kind, as a queue holds it (10_state.md R28). -/
structure Entry where
  opcode : Byte
  payload : Bytes
  kind : Kind
deriving DecidableEq, Repr

/-- The operand a range or length error names (60_exceptions.md R320, column info). -/
inductive OperandName where
  | opcode | payload | kind | index | type | dev | dtype | ttype | v
  /-- A field of a variant; `NODE.SETKEY`'s `key` is the field key. -/
  | field (f : FieldName)
deriving DecidableEq, Repr

/-- The channel operation a `ChannelError` names, in the order that numbers them 0..7 (R320). -/
inductive ChannelOp where
  | assign | setID | setSearchTimeout | setPeriod | setFrequency | opening | closing | unassign
deriving DecidableEq, Repr

/-- The node operation a `NodeError` names; number 0 (R320). -/
inductive NodeOp where
  | setNetworkKey
deriving DecidableEq, Repr

/-- What a lookup did not find (R320). -/
inductive Missing where
  | channel | network
deriving DecidableEq, Repr

/-- The errors of 60_exceptions.md R320, codes 0x01 to 0x0F, each with its info. -/
inductive Err where
  | malformedIncomplete
  | malformedBadSync
  | malformedPayloadTooLong
  | checksumMismatch (skip : Nat)
  | unknownMessageType (opc : Byte)
  | valueOutOfRange (what : OperandName)
  | lengthError (what : OperandName)
  | fieldOutOfBounds (f : FieldName)
  | channelError (op : ChannelOp)
  | nodeError (op : NodeOp)
  | alreadyStarted
  | notStarted
  | notFound (what : Missing)
  | stateError
  | transportError
deriving DecidableEq, Repr

/-- What an operation returns on success (30_encoding.md R105, column returns). -/
inductive Result where
  | nothing
  /-- A byte, a length, an index or a numeric field. -/
  | num (n : Nat)
  /-- A frame or a byte-string field. -/
  | bytes (bs : Bytes)
  /-- A variant kind; its number is `Kind.number` (R89). -/
  | kind (k : Kind)
  /-- A message (`PUMP.WAITMSG`). -/
  | message (m : Message)
deriving DecidableEq, Repr

/-- A response on a command port (10_state.md R48). -/
inductive Response where
  | ok (r : Result)
  | error (e : Err)
deriving DecidableEq, Repr

/-! ## Codec and pump -/

/-- The message holding register; `none` is the spec's "unwritten" (10_state.md R21, R22; assumption 7). -/
structure MR where
  opcode : Option Byte
  payload : Option Bytes
deriving DecidableEq, Repr

/-- A dispatch target (10_state.md R52). -/
inductive Target where
  | listener (l : ListenerId)
  /-- `Cb(g, i, c)`: callback c of channel slot i of generation g. -/
  | cb (gen index cb : Nat)
deriving DecidableEq, Repr

/-- The pump iteration phase `E.it` (10_state.md R51). -/
inductive PumpPhase where
  | read
  | scan
  | dispatch (m : Entry) (ts : List Target)
deriving DecidableEq, Repr

/-- The pump state (10_state.md R24 to R31, R51). -/
structure Pump where
  running : Bool
  alive : Bool
  stopReq : Bool
  faulted : Bool
  rxBuf : Bytes
  /-- Most recent first. -/
  ackQ : List Entry
  /-- Most recent first. -/
  msgQ : List Entry
  /-- In registration order. -/
  reg : List ListenerId
  it : PumpPhase
deriving DecidableEq, Repr

/-! ## Node and slots -/

/-- `N.state` (10_state.md R32). -/
inductive NodeState where
  | notStarted | running | stopped
deriving DecidableEq, Repr

/-- A slot name (10_state.md R42). `text` is the part of the name space callers can write; `placeholder i` is `PLACEHOLDER(i)`,
injective and equal to no caller's name by construction (assumption 14). -/
inductive SlotName where
  | text (bs : Bytes)
  | placeholder (i : Nat)
deriving DecidableEq, Repr

/-- A network-key slot (10_state.md R41). -/
structure NetSlot where
  index : Byte
  name : SlotName
  key : Bytes
deriving DecidableEq, Repr

/-- The per-slot lifecycle state (10_state.md R39). -/
inductive ChanState where
  | free | assigned | opened
deriving DecidableEq, Repr

/-- A channel slot (10_state.md R38). -/
structure ChanSlot where
  index : Byte
  gen : Nat
  state : ChanState
  name : SlotName
  /-- Callback numbers in registration order. -/
  cbs : List Nat
deriving DecidableEq, Repr

/-- The node state (10_state.md R32 to R40). `none` in a capability register is the spec's "unwritten". -/
structure Node where
  state : NodeState
  maxChannels : Option Byte
  maxNetworks : Option Byte
  stdOpts : Option Byte
  advOpts : Option Byte
  advOpts2 : Option Byte
  nets : List NetSlot
  chans : List ChanSlot
  oldChans : List ChanSlot
  gen : Nat
deriving DecidableEq, Repr

/-! ## Callers -/

/-- A sequencer phase (10_state.md R45). -/
inductive Phase where
  | idle
  | waitAck
  | waitClosed
  | waitMsg
  | waitPumpUp
  | waitPumpDown
  | settle
  | negKeys
  | faulted (f : Fault)
deriving DecidableEq, Repr

/-- One caller's sequencer `SEQ[k]` (10_state.md R44). `reply` is the model's own: the payload of the capabilities reply taken in C2,
which C5 reads (43_node.md R255; assumption 8). -/
structure Seq where
  op : Option Instr
  phase : Phase
  req : Option Message
  ch : Option Nat
  i : Nat
  reply : Bytes
deriving DecidableEq, Repr

/-! ## Environment -/

/-- The answer to a transport call that returns nothing (60_exceptions.md R336). -/
inductive CallResult where
  | done | error
deriving DecidableEq, Repr

/-- The answer to `write`: a count, which the block ignores, or a transport error (R337). -/
inductive WriteResult where
  | wrote (count : Nat)
  | error
deriving DecidableEq, Repr

/-- The answer to `read`: bytes, or a transport error (R338). -/
inductive ReadResult where
  | got (bs : Bytes)
  | error
deriving DecidableEq, Repr

/-- The answer of a listener invocation: returned, failed, or not returned yet (42_pump.md R220). -/
inductive ListenerResult where
  | returned | failed | pending
deriving DecidableEq, Repr

/-- The environment's answers to the calls one step can make; no step makes the same call twice. `isOpen` and the others are
the environment's free choice (93_implementation_defined.md U8 to U11); misuse is decided by the transport (R336). -/
structure Answers where
  isOpen : CallResult
  opening : CallResult
  closing : CallResult
  write : WriteResult
  read : ReadResult
  listener : ListenerResult
deriving DecidableEq, Repr

/-- A TRACE event (60_exceptions.md R345; assumption 22). -/
inductive TraceEvent where
  | opening
  | closing
  | read (r : ReadResult)
  | write (bs : Bytes) (r : WriteResult)
deriving DecidableEq, Repr

/-- The transport's open flag and what the output ports have carried, oldest first (10_state.md R46, R48; assumption 23). -/
structure Env where
  tOpen : Bool
  tx : List Bytes
  responses : List (Nat × Response)
  lsn : List (Target × Entry)
  trace : List TraceEvent
deriving DecidableEq, Repr

/-! ## Inputs -/

/-- Which agent takes the next step (60_exceptions.md R340). -/
inductive Agent where
  /-- A request on port CMD[k]. -/
  | request (k : Nat) (op : Instr)
  /-- Caller k takes the next step of its operation in progress. -/
  | caller (k : Nat)
  /-- The pump agent takes its next step. -/
  | pump
  /-- Block reset (70_reset_and_hazards.md R360). -/
  | blockReset
  /-- The transport is opened or closed by other means (R366; assumption 26). -/
  | transport (isOpen : Bool)
deriving DecidableEq, Repr

/-- One entry of the schedule: an agent's step and the environment's answers to the calls made in it. -/
structure Event where
  agent : Agent
  answers : Answers
deriving DecidableEq, Repr

/-- What the step in progress stands on: a port number and the environment's answers (assumption 4). -/
structure Turn where
  port : Nat
  answers : Answers
deriving DecidableEq, Repr

/-! ## The machine -/

/-- The whole machine: the parameters, the block's state (10_state.md R50), the environment, the step in progress and the schedule
still to be played. -/
structure State where
  cfg : Config
  mr : MR
  pump : Pump
  node : Node
  seqs : List Seq
  env : Env
  turn : Turn
  inputs : List Event
deriving DecidableEq, Repr

/-! ## Reset -/

def MR.reset : MR := { opcode := none, payload := none }

def Pump.reset : Pump where
  running := false
  alive := false
  stopReq := false
  faulted := false
  rxBuf := []
  ackQ := []
  msgQ := []
  reg := [.ackCollector, .msgCollector]
  it := .read

def Node.reset : Node where
  state := .notStarted
  maxChannels := none
  maxNetworks := none
  stdOpts := none
  advOpts := none
  advOpts2 := none
  nets := []
  chans := []
  oldChans := []
  gen := 0

def Seq.reset : Seq where
  op := none
  phase := .idle
  req := none
  ch := none
  i := 0
  reply := []

/-- An environment that refuses nothing and supplies nothing. -/
def Answers.quiet : Answers where
  isOpen := .done
  opening := .done
  closing := .done
  write := .wrote 0
  read := .got []
  listener := .returned

/-- The transport closed (DESIGN CHOICE, unsafe: assumption 5), nothing carried yet. -/
def Env.reset : Env where
  tOpen := false
  tx := []
  responses := []
  lsn := []
  trace := []

/-- The machine with parameters `c` right after block reset in a fresh environment (10_state.md R50). No request is pending: nothing
runs until an input is placed (70_reset_and_hazards.md R360; assumption 3). -/
def State.resetWith (c : Config) : State where
  cfg := c
  mr := .reset
  pump := .reset
  node := .reset
  seqs := List.replicate c.numCallers .reset
  env := .reset
  turn := { port := 0, answers := .quiet }
  inputs := []

/-- The machine right after reset, with the default parameters (10_state.md R50; assumption 6). -/
def State.reset : State := State.resetWith .default

end Sys2Proof.Machine
end

