-- ==== Sys2Proof/Machine/Flags.lean ====
section
/-! DEFINITION. ANTCODEC has no condition flags ("Flags: none" in every operation). Its flags are the four Booleans of the
pump (10_state.md R24): their updates, and which worker step they enable (42_pump.md R200). -/

namespace Sys2Proof.Machine

/-- The issue of a pump start: `E.running <- true; E.stopReq <- false` (42_pump.md R212). -/
def Pump.spawn (p : Pump) : Pump := { p with running := true, stopReq := false }

/-- `E.stopReq <- true` (R217). -/
def Pump.signalStop (p : Pump) : Pump := { p with stopReq := true }

/-- The end of a stop: `E.running <- false; E.stopReq <- false` (R217). -/
def Pump.confirmStop (p : Pump) : Pump := { p with running := false, stopReq := false }

/-- The begin step is enabled (R200). -/
def Pump.canBegin (p : Pump) : Bool := p.running && !p.alive && !p.stopReq && !p.faulted

/-- The worker is between begin and exit and has not died (R200): read, scan, deliver and exit need this. -/
def Pump.working (p : Pump) : Bool := p.alive && !p.faulted

end Sys2Proof.Machine
end

