-- ==== Sys2Proof/Decode.lean ====
section
/-! DEFINITION. The opcode map, the checksum, the frame codec, the decoder from bytes to instructions and the encoder
(30_encoding.md, 40_codec.md). -/

namespace Sys2Proof

/-- `SYNC` (30_encoding.md R82). -/
abbrev syncByte : Byte := 0xA4

/-- `MAX_PAYLOAD` (00_scope.md R7). -/
abbrev maxPayload : Nat := 9

/-- `MIN_DECODE` (00_scope.md R7). -/
abbrev minDecode : Nat := 5

/-- `FRAME_OVERHEAD` (00_scope.md R7). -/
abbrev frameOverhead : Nat := 4

/-! ## The opcode map -/

/-- The kinds in the order of R89. -/
def Kind.all : List Kind :=
  [.channelUnassign, .channelAssign, .channelId, .channelPeriod, .channelSearchTimeout, .channelFrequency,
   .channelTxPower, .networkKey, .txPower, .systemReset, .channelOpen, .channelClose, .channelRequest,
   .channelBroadcastData, .channelAcknowledgedData, .channelBurstData, .channelEvent, .channelStatus,
   .version, .capabilities, .serialNumber]

/-- The number of a kind on the command port (30_encoding.md R89). -/
def Kind.number : Kind → Nat
  | .channelUnassign => 0
  | .channelAssign => 1
  | .channelId => 2
  | .channelPeriod => 3
  | .channelSearchTimeout => 4
  | .channelFrequency => 5
  | .channelTxPower => 6
  | .networkKey => 7
  | .txPower => 8
  | .systemReset => 9
  | .channelOpen => 10
  | .channelClose => 11
  | .channelRequest => 12
  | .channelBroadcastData => 13
  | .channelAcknowledgedData => 14
  | .channelBurstData => 15
  | .channelEvent => 16
  | .channelStatus => 17
  | .version => 18
  | .capabilities => 19
  | .serialNumber => 20

/-- The opcode of a kind (30_encoding.md R90). -/
def Kind.opcode (c : Config) : Kind → Byte
  | .channelUnassign => 0x41
  | .channelAssign => 0x42
  | .channelId => 0x51
  | .channelPeriod => 0x43
  | .channelSearchTimeout => 0x44
  | .channelFrequency => 0x45
  | .channelTxPower => c.opcChannelTxPower
  | .networkKey => 0x46
  | .txPower => c.opcTxPower
  | .systemReset => 0x4A
  | .channelOpen => 0x4B
  | .channelClose => 0x4C
  | .channelRequest => 0x4D
  | .channelBroadcastData => 0x4E
  | .channelAcknowledgedData => 0x4F
  | .channelBurstData => 0x50
  | .channelEvent => 0x40
  | .channelStatus => 0x52
  | .version => 0x3E
  | .capabilities => 0x54
  | .serialNumber => 0x61

/-- The nominal payload length of a kind (30_encoding.md R90). -/
def Kind.nominalLength : Kind → Nat
  | .channelUnassign | .systemReset | .channelOpen | .channelClose => 1
  | .channelSearchTimeout | .channelFrequency | .channelTxPower | .txPower | .channelRequest | .channelStatus => 2
  | .channelAssign | .channelPeriod | .channelEvent => 3
  | .serialNumber => 4
  | .channelId | .capabilities => 5
  | .networkKey | .channelBroadcastData | .channelAcknowledgedData | .channelBurstData | .version => 9

/-- `resolve` on a byte: the kind whose row carries this opcode, if any (40_codec.md R130). -/
def resolve (c : Config) (opc : Byte) : Option Kind :=
  Kind.all.find? (fun k => k.opcode c = opc)

/-! ## The checksum -/

/-- One update of the checksum: the modulo is applied after every byte (30_encoding.md R83, R84). -/
def chkStep (c b : Byte) : Byte := (c ^^^ b) % 255#8

/-- `chk(L, opc, pay)` (30_encoding.md R83). -/
def chk (len opc : Byte) (pay : Bytes) : Byte :=
  (len :: opc :: pay).foldl chkStep syncByte

/-! ## Frames -/

/-- `encodeF(opc, pay)` (40_codec.md R121). -/
def encodeF (opc : Byte) (pay : Bytes) : Bytes :=
  let len : Byte := BitVec.ofNat 8 pay.length
  [syncByte, len, opc] ++ pay ++ [chk len opc pay]

/-- Why a byte string does not decode (40_codec.md R122 to R126), and why a decoded frame is no instruction (R130). -/
inductive DecodeError where
  /-- Fewer than 5 bytes, or fewer than `L + 4` (R122, R125). -/
  | incomplete
  /-- The first byte is not 0xA4 (R123). -/
  | badSync
  /-- The length byte is above 9 (R124). -/
  | payloadTooLong
  /-- The checksum byte is wrong; `skip = L + 4` (R126). -/
  | checksumMismatch (skip : Nat)
  /-- The opcode is in no row of the opcode map (R130). -/
  | unknownMessageType (opc : Byte)
deriving DecidableEq, Repr

/-- `decodeF(raw)`: the checks of 40_codec.md R122 in their order (R128). On success the opcode, the payload and the consumed
length `L + 4` (R127). -/
def decodeF (raw : Bytes) : Except DecodeError (Byte × Bytes × Nat) :=
  if raw.length < minDecode then .error .incomplete
  else if raw.getD 0 0 ≠ syncByte then .error .badSync
  else
    let len := (raw.getD 1 0).toNat
    if len > maxPayload then .error .payloadTooLong
    else if raw.length < len + frameOverhead then .error .incomplete
    else
      let opc := raw.getD 2 0
      let pay := (raw.drop 3).take len
      if chk (raw.getD 1 0) opc pay ≠ raw.getD (3 + len) 0 then .error (.checksumMismatch (len + frameOverhead))
      else .ok (opc, pay, len + frameOverhead)

/-! ## Instructions and frames -/

/-- The frame instruction of a kind with a payload. -/
def Instr.ofFrame : Kind → Bytes → Instr
  | .channelUnassign, p => .channelUnassign p
  | .channelAssign, p => .channelAssign p
  | .channelId, p => .channelId p
  | .channelPeriod, p => .channelPeriod p
  | .channelSearchTimeout, p => .channelSearchTimeout p
  | .channelFrequency, p => .channelFrequency p
  | .channelTxPower, p => .channelTxPower p
  | .networkKey, p => .networkKey p
  | .txPower, p => .txPower p
  | .systemReset, p => .systemReset p
  | .channelOpen, p => .channelOpen p
  | .channelClose, p => .channelClose p
  | .channelRequest, p => .channelRequest p
  | .channelBroadcastData, p => .channelBroadcastData p
  | .channelAcknowledgedData, p => .channelAcknowledgedData p
  | .channelBurstData, p => .channelBurstData p
  | .channelEvent, p => .channelEvent p
  | .channelStatus, p => .channelStatus p
  | .version, p => .version p
  | .capabilities, p => .capabilities p
  | .serialNumber, p => .serialNumber p

/-- The kind and payload of a frame instruction; none for a command-port operation. -/
def Instr.frame? : Instr → Option (Kind × Bytes)
  | .channelUnassign p => some (.channelUnassign, p)
  | .channelAssign p => some (.channelAssign, p)
  | .channelId p => some (.channelId, p)
  | .channelPeriod p => some (.channelPeriod, p)
  | .channelSearchTimeout p => some (.channelSearchTimeout, p)
  | .channelFrequency p => some (.channelFrequency, p)
  | .channelTxPower p => some (.channelTxPower, p)
  | .networkKey p => some (.networkKey, p)
  | .txPower p => some (.txPower, p)
  | .systemReset p => some (.systemReset, p)
  | .channelOpen p => some (.channelOpen, p)
  | .channelClose p => some (.channelClose, p)
  | .channelRequest p => some (.channelRequest, p)
  | .channelBroadcastData p => some (.channelBroadcastData, p)
  | .channelAcknowledgedData p => some (.channelAcknowledgedData, p)
  | .channelBurstData p => some (.channelBurstData, p)
  | .channelEvent p => some (.channelEvent, p)
  | .channelStatus p => some (.channelStatus, p)
  | .version p => some (.version, p)
  | .capabilities p => some (.capabilities, p)
  | .serialNumber p => some (.serialNumber, p)
  | .msgNew _ _ | .msgSetop _ | .msgSetpay _ | .msgEncode | .msgChecksum | .msgDecode _ | .msgResolve _
  | .msgResolveMr | .varBuild _ _ | .varGet _ | .varSet _ _ | .pumpStart | .pumpStop | .pumpReg _ | .pumpUnreg _
  | .pumpWrite | .pumpWaitack _ | .pumpWaitmsg _ | .nodeStart | .nodeStop _ | .nodeCaps | .nodeSetkey _ _
  | .nodeFreech | .nodeGetkey _ | .chAssign _ _ _ | .chSetid _ _ _ _ | .chSetto _ _ | .chSetper _ _ | .chSetfreq _ _
  | .chOpen _ | .chClose _ | .chUnassign _ | .chReg _ _ | .chUnreg _ _ => none

/-- Whether an instruction is a command-port operation (30_encoding.md R105). -/
def Instr.isCommand (i : Instr) : Bool := i.frame?.isNone

/-- The decoder: the instruction at the front of a byte string and its length in bytes, or the name of what is wrong. Decode
comes first and resolve second (42_pump.md R203). -/
def decode (c : Config) (raw : Bytes) : Except DecodeError (Instr × Nat) :=
  match decodeF raw with
  | .error e => .error e
  | .ok (opc, pay, n) =>
    match resolve c opc with
    | none => .error (.unknownMessageType opc)
    | some k => .ok (.ofFrame k pay, n)

/-- The encoder: the frame of a frame instruction. A command-port operation has no binary encoding (30_encoding.md R100). -/
def encode (c : Config) (i : Instr) : Option Bytes :=
  match i.frame? with
  | none => none
  | some (k, pay) => some (encodeF (k.opcode c) pay)

/-! ## The host's words -/

/-- The bytes of a word of `n` bytes, least significant first. -/
def bytesOfWord : Nat → Nat → Bytes
  | 0, _ => []
  | n + 1, w => BitVec.ofNat 8 w :: bytesOfWord n (w / 256)

/-- The frame that stands for a word of the opcode table. The table's bits of a frame row are its opcode byte (frame byte 2), and
every payload byte they do not reach is 0, up to the nominal length of the opcode's variant. DESIGN CHOICE, safe: the table gives no
length, and sync, length and checksum follow from R80 (assumption 25). -/
def frameOfTableWord (c : Config) (nbits w : Nat) : Bytes :=
  let given := bytesOfWord (max 1 (nbits / 8)) w
  let opc := given.headD 0
  let nominal := ((resolve c opc).map Kind.nominalLength).getD 1
  let pay := given.tail
  encodeF opc (pay ++ List.replicate (nominal - pay.length) 0)

/-- What the decoder reads from a word of the opcode table, with the default parameters. -/
def decodeTableWord (nbits w : Nat) : Option Instr :=
  match decode .default (frameOfTableWord .default nbits w) with
  | .ok (i, _) => some i
  | .error _ => none

end Sys2Proof
end

