-- ==== Sys2Proof/Machine/Operands.lean ====
section
/-! DEFINITION. Operand forms: payload layouts, 16-bit fields, field reads and writes, variant building, operand ranges and the
predicates over messages that waits and listeners use. -/

namespace Sys2Proof

/-! ## Byte order -/

/-- `le16(lo, hi)` (00_scope.md R9, 20_memory.md R60). -/
def le16 (lo hi : Byte) : Nat := lo.toNat + 256 * hi.toNat

/-- The two payload bytes of a 16-bit value, low byte first (R60). -/
def bytesOf16 (v : Nat) : Bytes := [BitVec.ofNat 8 v, BitVec.ofNat 8 (v / 256)]

/-! ## Layouts -/

/-- The type of a field: a byte, a 16-bit number, a byte string of fixed length, or all bytes from its offset on
(41_variants.md R146). -/
inductive FieldType where
  | byte
  | word
  | fixed (n : Nat)
  | rest
deriving DecidableEq, Repr

/-- The fields of a kind with their payload offsets, in the order of the variant's rule (30_encoding.md R92). -/
def Kind.layout : Kind → List (FieldName × Nat × FieldType)
  | .channelUnassign => [(.channel, 0, .byte)]
  | .channelAssign => [(.channel, 0, .byte), (.chanType, 1, .byte), (.network, 2, .byte)]
  | .channelId => [(.channel, 0, .byte), (.deviceNumber, 1, .word), (.deviceType, 3, .byte), (.transType, 4, .byte)]
  | .channelPeriod => [(.channel, 0, .byte), (.period, 1, .word)]
  | .channelSearchTimeout => [(.channel, 0, .byte), (.timeout, 1, .byte)]
  | .channelFrequency => [(.channel, 0, .byte), (.frequency, 1, .byte)]
  | .channelTxPower => [(.channel, 0, .byte), (.power, 1, .byte)]
  | .networkKey => [(.network, 0, .byte), (.key, 1, .fixed 8)]
  | .txPower => [(.power, 1, .byte)]
  | .systemReset => []
  | .channelOpen => [(.channel, 0, .byte)]
  | .channelClose => [(.channel, 0, .byte)]
  | .channelRequest => [(.channel, 0, .byte), (.requested, 1, .byte)]
  | .channelBroadcastData => [(.channel, 0, .byte), (.data, 1, .rest)]
  | .channelAcknowledgedData => [(.channel, 0, .byte), (.data, 1, .rest)]
  | .channelBurstData => [(.channel, 0, .byte), (.data, 1, .rest)]
  | .channelEvent => [(.channel, 0, .byte), (.origOpcode, 1, .byte), (.code, 2, .byte)]
  | .channelStatus => [(.channel, 0, .byte), (.status, 1, .byte)]
  | .version => [(.version, 0, .rest)]
  | .capabilities =>
    [(.maxChannels, 0, .byte), (.maxNetworks, 1, .byte), (.stdOpts, 2, .byte), (.advOpts, 3, .byte),
     (.advOpts2, 4, .byte)]
  | .serialNumber => [(.serial, 0, .fixed 4)]

/-- The filler bytes in front of the fields (30_encoding.md R98). -/
def Kind.filler : Kind → Bytes
  | .systemReset | .txPower => [0x00]
  | .channelUnassign | .channelAssign | .channelId | .channelPeriod | .channelSearchTimeout | .channelFrequency
  | .channelTxPower | .networkKey | .channelOpen | .channelClose | .channelRequest | .channelBroadcastData
  | .channelAcknowledgedData | .channelBurstData | .channelEvent | .channelStatus | .version | .capabilities
  | .serialNumber => []

/-- Whether payload offset 0 is a channel number (30_encoding.md R93). -/
def Kind.channelScoped : Kind → Bool
  | .networkKey | .txPower | .systemReset | .version | .capabilities | .serialNumber => false
  | .channelUnassign | .channelAssign | .channelId | .channelPeriod | .channelSearchTimeout | .channelFrequency
  | .channelTxPower | .channelOpen | .channelClose | .channelRequest | .channelBroadcastData
  | .channelAcknowledgedData | .channelBurstData | .channelEvent | .channelStatus => true

/-- The offset and type of field `f` in variant `k`; none if `f` does not belong to `k`. -/
def Kind.fieldAt (k : Kind) (f : FieldName) : Option (Nat × FieldType) :=
  (k.layout.find? (fun e => e.1 = f)).map (fun e => e.2)

/-! ## Field values -/

/-- Whether a value has the sort a field's type requires (60_exceptions.md R333). -/
def FieldType.takes : FieldType → Value → Bool
  | .byte, .num _ | .word, .num _ | .fixed _, .bytes _ | .rest, .bytes _ => true
  | .byte, .bytes _ | .word, .bytes _ | .fixed _, .num _ | .rest, .num _ => false

/-- The range or length error of a value for field `f` at offset `o`, if it has one (30_encoding.md R97, 41_variants.md R147). -/
def FieldType.valueError (f : FieldName) (o : Nat) : FieldType → Value → Option Machine.Err
  | .byte, .num n => if n > 255 then some (.valueOutOfRange (.field f)) else none
  | .word, .num n => if n > 65535 then some (.valueOutOfRange (.field f)) else none
  | .fixed n, .bytes bs => if bs.length ≠ n then some (.lengthError (.field f)) else none
  | .rest, .bytes bs => if o + bs.length > maxPayload then some (.lengthError (.field f)) else none
  | .byte, .bytes _ | .word, .bytes _ | .fixed _, .num _ | .rest, .num _ => none

/-- The payload bytes of a value. -/
def FieldType.valueBytes : FieldType → Value → Bytes
  | .word, .num n => bytesOf16 n
  | .byte, .num n | .fixed _, .num n | .rest, .num n => [BitVec.ofNat 8 n]
  | .byte, .bytes bs | .word, .bytes bs | .fixed _, .bytes bs | .rest, .bytes bs => bs

/-- Read a field of type `ty` at offset `o`; none where the payload is too short (41_variants.md R146, R148). -/
def readField (o : Nat) (ty : FieldType) (pay : Bytes) : Option Value :=
  match ty with
  | .byte => if pay.length < o + 1 then none else some (.num (pay.getD o 0).toNat)
  | .word => if pay.length < o + 2 then none else some (.num (le16 (pay.getD o 0) (pay.getD (o + 1) 0)))
  | .fixed n => if pay.length < o + n then none else some (.bytes ((pay.drop o).take n))
  | .rest => if pay.length < o then none else some (.bytes (pay.drop o))

/-- `pay[o : o + len(bs)] <- bs`. -/
def overwrite (o : Nat) (bs pay : Bytes) : Bytes := pay.take o ++ bs ++ pay.drop (o + bs.length)

/-- Write a value that has no range or length error; none where the payload is too short (41_variants.md R147). The
`advOpts2` byte of a 4-byte CAPABILITIES payload is appended (R170). -/
def writeField (k : Kind) (f : FieldName) (o : Nat) (ty : FieldType) (v : Value) (pay : Bytes) : Option Bytes :=
  let bs := ty.valueBytes v
  match ty with
  | .byte =>
    if k = .capabilities ∧ f = .advOpts2 ∧ pay.length = 4 then some (pay ++ bs)
    else if pay.length < o + 1 then none
    else some (overwrite o bs pay)
  | .word => if pay.length < o + 2 then none else some (overwrite o bs pay)
  | .fixed n => if pay.length < o + n then none else some (overwrite o bs pay)
  | .rest => if pay.length < o then none else some (pay.take o ++ bs)

/-! ## Building a variant -/

/-- Whether a build may carry `vs` though they are not one value for each field: `advOpts2` left out (41_variants.md R169), or the
filler byte of SYSTEM_RESET given (60_exceptions.md R330; assumption 18). -/
def Kind.variesTo (k : Kind) (vs : List Value) : Bool :=
  (decide (k = .capabilities) && decide (vs.length = 4)) || (decide (k = .systemReset) && decide (vs = [.num 0x00]))

/-- Whether `vs` are the values variant `k` takes: one for each field, each of its sort, or one of the two other forms
(41_variants.md R145). -/
def Kind.takes (k : Kind) (vs : List Value) : Bool :=
  (decide (vs.length = k.layout.length) || k.variesTo vs) && (k.layout.zip vs).all (fun e => e.1.2.2.takes e.2)

/-- The first range error in field order, else the first length error in field order (41_variants.md R145). -/
def Kind.buildError (k : Kind) (vs : List Value) : Option Machine.Err :=
  let fields := k.layout.zip vs
  let numeric := fields.findSome? fun e =>
    match e.2 with
    | .num _ => e.1.2.2.valueError e.1.1 e.1.2.1 e.2
    | .bytes _ => none
  let strings := fields.findSome? fun e =>
    match e.2 with
    | .num _ => none
    | .bytes _ => e.1.2.2.valueError e.1.1 e.1.2.1 e.2
  numeric <|> strings

/-- The payload of variant `k` with field values `vs`: fillers, then the fields, which stand side by side in every layout
(30_encoding.md R92). A filler given as a value adds nothing. -/
def Kind.buildPayload (k : Kind) (vs : List Value) : Bytes :=
  k.filler ++ (k.layout.zip vs).flatMap (fun e => e.1.2.2.valueBytes e.2)

/-! ## Operand ranges -/

namespace Machine

/-- The first operand above its maximum, in the order given (44_channel.md R282). -/
def rangeError (operands : List (OperandName × Nat × Nat)) : Option Err :=
  operands.findSome? fun e => if e.2.1 > e.2.2 then some (.valueOutOfRange e.1) else none

/-! ## Predicates over messages -/

/-- `ackMatch(opc)`: at least 3 payload bytes and the original opcode equal (42_pump.md R210). -/
def ackMatch (opc : Nat) (e : Entry) : Bool :=
  decide (3 ≤ e.payload.length) && decide ((e.payload.getD 1 0).toNat = opc)

/-- The response code of a channel event (30_encoding.md R92). -/
def Entry.code (e : Entry) : Byte := e.payload.getD 2 0

/-- Byte j of a capabilities reply; an absent byte is 0x00 (43_node.md R255). -/
def replyByte (reply : Bytes) (j : Nat) : Byte := reply.getD j 0

/-- The channel filter of listener `ChannelL(g, i)` (44_channel.md R297). -/
def channelFilter (i : Nat) (m : Entry) : Bool :=
  m.kind.channelScoped && decide (1 ≤ m.payload.length) && decide ((m.payload.getD 0 0).toNat = i)

/-- Whether an entry is a closed event that ends a close (44_channel.md R293). -/
def closesChannel (cfg : Config) (e : Entry) : Bool :=
  decide (3 ≤ e.payload.length) && decide (e.code = cfg.eventChannelClosed)

end Machine

end Sys2Proof
end

