-- ==== Sys2Proof/Machine/Ops.lean ====
section
/-! DEFINITION. The shared operations: updates of the state's parts, the sequencer of the port in turn, responses, raising an
error and faulting a caller, the bounded queues, slot tables, and the transport's calls. -/

namespace Sys2Proof.Machine

/-- What a meaning answers. -/
abbrev Answer := Host.Outcome State Fault Refusal

/-! ## Updates of the state's parts -/

def State.withMr (s : State) (m : MR) : State := { s with mr := m }
def State.withPump (s : State) (p : Pump) : State := { s with pump := p }
def State.withNode (s : State) (n : Node) : State := { s with node := n }
def State.withSeqs (s : State) (q : List Seq) : State := { s with seqs := q }
def State.withEnv (s : State) (e : Env) : State := { s with env := e }
def State.withTurn (s : State) (t : Turn) : State := { s with turn := t }
def State.withInputs (s : State) (es : List Event) : State := { s with inputs := es }

/-! ## The sequencer of the port in turn -/

/-- `SEQ[k]` for the port k in turn; a sequencer in reset where no such port exists. -/
def State.seq (s : State) : Seq := s.seqs.getD s.turn.port .reset

/-- Change `SEQ[k]` for the port k in turn; nothing where no such port exists. -/
def State.modifySeq (s : State) (f : Seq → Seq) : State := s.withSeqs (s.seqs.modify s.turn.port f)

/-- `SEQ[k].phase <- p`. -/
def State.setPhase (s : State) (p : Phase) : State := s.modifySeq fun q => { q with phase := p }

/-- `SEQ[k].op <- i`: the operation is in progress from here on (10_state.md R44; assumption 13). -/
def State.beginOp (s : State) (i : Instr) : State := s.modifySeq fun q => { q with op := some i }

/-- `SEQ[k].req <- m`. -/
def State.setReq (s : State) (m : Message) : State := s.modifySeq fun q => { q with req := some m }

/-- `SEQ[k].ch <- ch`. -/
def State.setCh (s : State) (ch : Nat) : State := s.modifySeq fun q => { q with ch := some ch }

/-- The sequencer back in `Idle`: `op`, `req` and `ch` become none and `i` keeps its value (10_state.md R49). -/
def Seq.toIdle (q : Seq) : Seq := { Seq.reset with i := q.i }

/-- The end of an operation: the port responds and `SEQ[k]` returns to `Idle` in the same step (10_state.md R49). -/
def State.respond (r : Response) (s : State) : State :=
  (s.withEnv { s.env with responses := s.env.responses ++ [(s.turn.port, r)] }).modifySeq Seq.toIdle

/-- Respond OK with a result. -/
def State.ok (r : Result) (s : State) : State := s.respond (.ok r)

/-! ## Errors and faults -/

/-- `raise E(info)`: the operation ends and the port answers the error; nothing else is written (60_exceptions.md R321). -/
def State.raise (e : Err) (s : State) : State := s.respond (.error e)

/-- `fault F`: the caller's sequencer goes to `Faulted(F)`; no response, and no request until block reset (R334). -/
def State.faultCaller (f : Fault) (s : State) : State := s.setPhase (.faulted f)

/-! ## Running an operation on its port -/

/-- One step of operation `i` on the port in turn. In `Idle` the request is admitted if it is well formed (`accepted`): it
becomes the operation in progress and `issue` runs. While `i` is in progress `resume` runs the step its phase names. In
every other case the port has no step: the request is refused or not admitted and nothing changes (10_state.md R49,
60_exceptions.md R333; assumption 11). -/
def onPort (i : Instr) (accepted : Bool) (issue : State → State) (resume : Phase → State → State) (s : State) : Answer :=
  match s.seqs[s.turn.port]? with
  | none => .next s
  | some q =>
    if q.phase = .idle then
      if accepted then .next (issue (s.beginOp i)) else .next s
    else if q.op = some i then .next (resume q.phase s)
    else .next s

/-- The `resume` of an operation of one step: it has none to run. -/
def hold (_ : Phase) (s : State) : State := s

/-! ## Queues -/

/-- `QUEUE_CAP` (00_scope.md R7). -/
abbrev queueCap : Nat := 25

/-- `QInsert(q, m)` (42_pump.md R206). -/
def qInsert (q : List Entry) (m : Entry) : List Entry := (m :: q).take queueCap

/-- `QTake(q, pred)`: the most recent entry that satisfies `pred`, and the queue without it (42_pump.md R209). -/
def qTake (pred : Entry → Bool) : List Entry → Option (Entry × List Entry)
  | [] => none
  | e :: q =>
    if pred e then some (e, q)
    else
      match qTake pred q with
      | none => none
      | some (x, q') => some (x, e :: q')

/-- Take an ack of request opcode `opc` from `E.ackQ` and go on, or hold (R210). -/
def takeAck (opc : Nat) (go : Entry → State → State) (s : State) : State :=
  match qTake (ackMatch opc) s.pump.ackQ with
  | none => s
  | some (e, q) => go e (s.withPump { s.pump with ackQ := q })

/-- Take a message of kind `k` from `E.msgQ` and go on, or hold (R211). -/
def takeMsg (k : Kind) (go : Entry → State → State) (s : State) : State :=
  match qTake (fun e => decide (e.kind = k)) s.pump.msgQ with
  | none => s
  | some (e, q) => go e (s.withPump { s.pump with msgQ := q })

/-! ## Slot tables -/

/-- The channel slot of generation g at index i, current or earlier (10_state.md R40). -/
def Node.slot? (n : Node) (g i : Nat) : Option ChanSlot :=
  (n.chans ++ n.oldChans).find? fun c => decide (c.gen = g ∧ c.index.toNat = i)

/-- Write the state of current slot `ch`; nothing if the table has no such slot (44_channel.md R281, R301). -/
def Node.setChanState (n : Node) (ch : Nat) (st : ChanState) : Node :=
  { n with chans := n.chans.modify ch fun c => { c with state := st } }

/-- Write the callbacks of current slot `ch`. -/
def Node.setCbs (n : Node) (ch : Nat) (f : List Nat → List Nat) : Node :=
  { n with chans := n.chans.modify ch fun c => { c with cbs := f c.cbs } }

/-- The lowest index whose slot is `Free` (43_node.md R260). -/
def Node.freeChannel (n : Node) : Option Nat := n.chans.findIdx? fun c => decide (c.state = .free)

/-- The lowest index whose slot has the caller's name (R261). -/
def Node.networkIndex (n : Node) (name : Bytes) : Option Nat := n.nets.findIdx? fun k => decide (k.name = .text name)

/-- Whether a listener identifier names something: a `ChannelL(g, i)` must name a slot (60_exceptions.md R333). -/
def Node.names (n : Node) : ListenerId → Bool
  | .channelL g i => (n.slot? g i).isSome
  | .ackCollector | .msgCollector | .external _ => true

/-! ## The transport's calls -/

/-- One event on TRACE, if a logger is attached (60_exceptions.md R345). -/
def State.traceEvent (s : State) (ev : TraceEvent) : State :=
  if s.cfg.logger then s.withEnv { s.env with trace := s.env.trace ++ [ev] } else s

/-- `isOpen()`: the open flag, or none for a transport error (R336). It emits no TRACE event (R345). -/
def State.transportIsOpen (s : State) : Option Bool :=
  match s.turn.answers.isOpen with
  | .done => some s.env.tOpen
  | .error => none

/-- `open()`: opening an open transport is misuse (R336). -/
def State.transportOpen (s : State) : CallResult × State :=
  let t := s.traceEvent .opening
  if s.env.tOpen then (.error, t)
  else
    match s.turn.answers.opening with
    | .done => (.done, t.withEnv { t.env with tOpen := true })
    | .error => (.error, t)

/-- `close()`: closing a closed transport is misuse (R336). -/
def State.transportClose (s : State) : CallResult × State :=
  let t := s.traceEvent .closing
  if s.env.tOpen then
    match s.turn.answers.closing with
    | .done => (.done, t.withEnv { t.env with tOpen := false })
    | .error => (.error, t)
  else (.error, t)

/-- What `write(bs)` answers: misuse on a closed transport or of no bytes, else the environment's choice (R336). -/
def State.writeResult (s : State) (bs : Bytes) : WriteResult :=
  if s.env.tOpen && !bs.isEmpty then s.turn.answers.write else .error

/-- `TxWrite(bs)`: one call of `write`; on success TX carries the whole string, whatever count comes back (R337). -/
def State.txWrite (s : State) (bs : Bytes) : CallResult × State :=
  let t := s.traceEvent (.write bs (s.writeResult bs))
  match s.writeResult bs with
  | .wrote _ => (.done, t.withEnv { t.env with tx := t.env.tx ++ [bs] })
  | .error => (.error, t)

/-- What `read(READ_CHUNK)` answers: misuse on a closed transport or of count 0, else the environment's choice of at most
`READ_CHUNK` bytes (R336, R338; assumption 21). -/
def State.readResult (s : State) : ReadResult :=
  if s.env.tOpen && decide (1 ≤ s.cfg.readChunk) then
    match s.turn.answers.read with
    | .got bs => .got (bs.take s.cfg.readChunk)
    | .error => .error
  else .error

/-- `RxRead(READ_CHUNK)`: one call of `read` (R338). -/
def State.rxRead (s : State) : ReadResult × State := (s.readResult, s.traceEvent (.read s.readResult))

/-- Write a frame and go on, or raise `TransportError` (R339). -/
def sendFrame (opc : Byte) (pay : Bytes) (go : State → State) (s : State) : State :=
  match s.txWrite (encodeF opc pay) with
  | (.done, t) => go t
  | (.error, t) => t.raise .transportError

/-! ## Block reset -/

/-- Block reset: every element of the block takes its reset value; parameters, environment and schedule stay
(10_state.md R50, 70_reset_and_hazards.md R360, R361). -/
def State.blockReset (s : State) : State :=
  { s with
    mr := .reset
    pump := .reset
    node := .reset
    seqs := List.replicate s.cfg.numCallers .reset }

end Sys2Proof.Machine
end

