-- ==== Sys2Proof/Machine/Channel.lean ====
section
/-! DEFINITION. The channel operations (44_channel.md): the common sequence H1, H2 and the second phase of a close. -/

namespace Sys2Proof.Machine

/-- Step H1 of the common sequence (44_channel.md R281) with the checks of R282 in their order: the slot exists, the operand
ranges, `payload` (an error there is a name not found), the slot's state. -/
def issueChannel (ch : Nat) (ranges : List (OperandName × Nat × Nat)) (required : ChanState) (opc : Byte)
    (payload : Except Err Bytes) (s : State) : State :=
  match s.node.chans[ch]? with
  | none => s.raise (.notFound .channel)
  | some slot =>
    match rangeError ranges with
    | some e => s.raise e
    | none =>
      match payload with
      | .error e => s.raise e
      | .ok p =>
        if slot.state ≠ required then s.raise .stateError
        else
          sendFrame opc p
            (fun t => ((t.setReq { opcode := opc, payload := p }).setCh ch).setPhase .waitAck) s

/-- Step H2 of the common sequence: take the ack; a code other than `RESPONSE_NO_ERROR` raises `ChannelError`, else `go` on
(R281). -/
def channelAcked (opc : Byte) (op : ChannelOp) (go : State → State) (s : State) : State :=
  takeAck opc.toNat
    (fun e t => if e.code ≠ t.cfg.responseNoError then t.raise (.channelError op) else go t)
    s

/-- Write the state of slot `SEQ[k].ch` of the current table, if it has one, and respond OK (R281, R301). -/
def finishChannel (next : Option ChanState) (s : State) : State :=
  match next, s.seq.ch with
  | some st, some ch => (s.withNode (s.node.setChanState ch st)).ok .nothing
  | _, _ => s.ok .nothing

/-- The step after H1 of an operation that ends with its ack. -/
def channelResume (opc : Byte) (op : ChannelOp) (next : Option ChanState) (phase : Phase) (s : State) : State :=
  match phase with
  | .waitAck => channelAcked opc op (finishChannel next) s
  | .idle | .waitClosed | .waitMsg | .waitPumpUp | .waitPumpDown | .settle | .negKeys | .faulted _ => s

/-- The second phase of `CH.CLOSE`: take one channel event; a closed event ends the close, any other is dropped (R293). -/
def closeTaken (e : Entry) (s : State) : State :=
  if closesChannel s.cfg e then finishChannel (some .assigned) s else s

/-- The payload of a CHANNEL_ASSIGN command, or `NotFound(network)` (R284). -/
def assignPayload (s : State) (ch : Nat) (name : Bytes) (type : Nat) : Except Err Bytes :=
  match s.node.networkIndex name with
  | none => .error (.notFound .network)
  | some net => .ok [BitVec.ofNat 8 ch, BitVec.ofNat 8 type, BitVec.ofNat 8 net]

/-- `CH.ASSIGN ch, name, type` (44_channel.md R284). -/
def execChAssign (ch : Nat) (name : Bytes) (type : Nat) (s : State) : Answer :=
  onPort (.chAssign ch name type) true
    (fun s => issueChannel ch [(.type, type, 255)] .free 0x42 (assignPayload s ch name type) s)
    (channelResume 0x42 .assign (some .assigned)) s

/-- `CH.SETID ch, dev, dtype, ttype` (R285). -/
def execChSetid (ch dev dtype ttype : Nat) (s : State) : Answer :=
  onPort (.chSetid ch dev dtype ttype) true
    (issueChannel ch [(.dev, dev, 65535), (.dtype, dtype, 255), (.ttype, ttype, 255)] .assigned 0x51
      (.ok (BitVec.ofNat 8 ch :: bytesOf16 dev ++ [BitVec.ofNat 8 dtype, BitVec.ofNat 8 ttype])))
    (channelResume 0x51 .setID none) s

/-- `CH.SETTO ch, v` (R286). -/
def execChSetto (ch v : Nat) (s : State) : Answer :=
  onPort (.chSetto ch v) true
    (issueChannel ch [(.v, v, 255)] .assigned 0x44 (.ok [BitVec.ofNat 8 ch, BitVec.ofNat 8 v]))
    (channelResume 0x44 .setSearchTimeout none) s

/-- `CH.SETPER ch, v` (R287). -/
def execChSetper (ch v : Nat) (s : State) : Answer :=
  onPort (.chSetper ch v) true
    (issueChannel ch [(.v, v, 65535)] .assigned 0x43 (.ok (BitVec.ofNat 8 ch :: bytesOf16 v)))
    (channelResume 0x43 .setPeriod none) s

/-- `CH.SETFREQ ch, v` (R288). -/
def execChSetfreq (ch v : Nat) (s : State) : Answer :=
  onPort (.chSetfreq ch v) true
    (issueChannel ch [(.v, v, 255)] .assigned 0x45 (.ok [BitVec.ofNat 8 ch, BitVec.ofNat 8 v]))
    (channelResume 0x45 .setFrequency none) s

/-- `CH.OPEN ch` (R290). -/
def execChOpen (ch : Nat) (s : State) : Answer :=
  onPort (.chOpen ch) true
    (issueChannel ch [] .assigned 0x4B (.ok [BitVec.ofNat 8 ch]))
    (channelResume 0x4B .opening (some .opened)) s

/-- `CH.CLOSE ch` (R292, R293). -/
def execChClose (ch : Nat) (s : State) : Answer :=
  onPort (.chClose ch) true
    (issueChannel ch [] .opened 0x4C (.ok [BitVec.ofNat 8 ch]))
    (fun phase s =>
      match phase with
      | .waitAck => channelAcked 0x4C .closing (State.setPhase · .waitClosed) s
      | .waitClosed => takeMsg .channelEvent closeTaken s
      | _ => s)
    s

/-- `CH.UNASSIGN ch` (R295). -/
def execChUnassign (ch : Nat) (s : State) : Answer :=
  onPort (.chUnassign ch) true
    (issueChannel ch [] .assigned 0x41 (.ok [BitVec.ofNat 8 ch]))
    (channelResume 0x41 .unassign (some .free)) s

/-- Change the callbacks of slot `ch` and respond, or raise `NotFound(channel)` (R299, R300). -/
def changeCallbacks (ch : Nat) (f : List Nat → List Nat) (s : State) : State :=
  if ch ≥ s.node.chans.length then s.raise (.notFound .channel)
  else (s.withNode (s.node.setCbs ch f)).ok .nothing

/-- `CH.REG ch, cb` (R299). -/
def execChReg (ch cb : Nat) (s : State) : Answer :=
  onPort (.chReg ch cb) true
    (changeCallbacks ch fun cbs => if cbs.contains cb then cbs else cbs ++ [cb]) hold s

/-- `CH.UNREG ch, cb` (R300). -/
def execChUnreg (ch cb : Nat) (s : State) : Answer :=
  onPort (.chUnreg ch cb) true
    (changeCallbacks ch fun cbs => cbs.filter fun x => decide (x ≠ cb)) hold s

end Sys2Proof.Machine
end

