-- ==== Sys2Proof/Machine/Frame.lean ====
section
/-! DEFINITION. What the pump does with a decoded frame of each variant: the scan step makes it the message in dispatch, with a
snapshot of the registry as its targets (42_pump.md R203, R205; assumption 1). The deliver steps that follow are in Worker.lean. -/

namespace Sys2Proof.Machine

/-- The message of a kind with a payload, as it is dispatched (10_state.md R28). -/
def Entry.ofFrame (cfg : Config) (k : Kind) (payload : Bytes) : Entry where
  opcode := k.opcode cfg
  payload := payload
  kind := k

/-- `targets(reg)`: the registry as it stands (42_pump.md R205). -/
def targets (reg : List ListenerId) : List Target := reg.map .listener

/-- `m <- (opc, pay, k); E.it <- Dispatch(m, targets(E.reg))` (42_pump.md R203). -/
def startDispatch (k : Kind) (payload : Bytes) (s : State) : State :=
  s.withPump { s.pump with it := .dispatch (.ofFrame s.cfg k payload) (targets s.pump.reg) }

/-- CHANNEL_UNASSIGN (41_variants.md R150). -/
def execChannelUnassign (payload : Bytes) (s : State) : Answer := .next (startDispatch .channelUnassign payload s)

/-- CHANNEL_ASSIGN (R151). -/
def execChannelAssign (payload : Bytes) (s : State) : Answer := .next (startDispatch .channelAssign payload s)

/-- CHANNEL_ID (R152). -/
def execChannelId (payload : Bytes) (s : State) : Answer := .next (startDispatch .channelId payload s)

/-- CHANNEL_PERIOD (R153). -/
def execChannelPeriod (payload : Bytes) (s : State) : Answer := .next (startDispatch .channelPeriod payload s)

/-- CHANNEL_SEARCH_TIMEOUT (R154). -/
def execChannelSearchTimeout (payload : Bytes) (s : State) : Answer :=
  .next (startDispatch .channelSearchTimeout payload s)

/-- CHANNEL_FREQUENCY (R155). -/
def execChannelFrequency (payload : Bytes) (s : State) : Answer := .next (startDispatch .channelFrequency payload s)

/-- CHANNEL_TX_POWER (R156). -/
def execChannelTxPower (payload : Bytes) (s : State) : Answer := .next (startDispatch .channelTxPower payload s)

/-- NETWORK_KEY (R157). -/
def execNetworkKey (payload : Bytes) (s : State) : Answer := .next (startDispatch .networkKey payload s)

/-- TX_POWER (R158). -/
def execTxPower (payload : Bytes) (s : State) : Answer := .next (startDispatch .txPower payload s)

/-- SYSTEM_RESET (R159). A received one is dispatched like any other message and changes no other block state. -/
def execSystemReset (payload : Bytes) (s : State) : Answer := .next (startDispatch .systemReset payload s)

/-- CHANNEL_OPEN (R160). -/
def execChannelOpen (payload : Bytes) (s : State) : Answer := .next (startDispatch .channelOpen payload s)

/-- CHANNEL_CLOSE (R161). -/
def execChannelClose (payload : Bytes) (s : State) : Answer := .next (startDispatch .channelClose payload s)

/-- CHANNEL_REQUEST (R162). -/
def execChannelRequest (payload : Bytes) (s : State) : Answer := .next (startDispatch .channelRequest payload s)

/-- CHANNEL_BROADCAST_DATA (R163). -/
def execChannelBroadcastData (payload : Bytes) (s : State) : Answer :=
  .next (startDispatch .channelBroadcastData payload s)

/-- CHANNEL_ACKNOWLEDGED_DATA (R164). -/
def execChannelAcknowledgedData (payload : Bytes) (s : State) : Answer :=
  .next (startDispatch .channelAcknowledgedData payload s)

/-- CHANNEL_BURST_DATA (R165). -/
def execChannelBurstData (payload : Bytes) (s : State) : Answer := .next (startDispatch .channelBurstData payload s)

/-- CHANNEL_EVENT (R166). -/
def execChannelEvent (payload : Bytes) (s : State) : Answer := .next (startDispatch .channelEvent payload s)

/-- CHANNEL_STATUS (R167). -/
def execChannelStatus (payload : Bytes) (s : State) : Answer := .next (startDispatch .channelStatus payload s)

/-- VERSION (R168). -/
def execVersion (payload : Bytes) (s : State) : Answer := .next (startDispatch .version payload s)

/-- CAPABILITIES (R169). -/
def execCapabilities (payload : Bytes) (s : State) : Answer := .next (startDispatch .capabilities payload s)

/-- SERIAL_NUMBER (R171). -/
def execSerialNumber (payload : Bytes) (s : State) : Answer := .next (startDispatch .serialNumber payload s)

end Sys2Proof.Machine
end

