-- ==== Sys2Proof/Machine/Codec.lean ====
section
/-! DEFINITION. The codec operations on the message register (40_codec.md). Each is one step. -/

namespace Sys2Proof.Machine

/-- Read both fields of `MR` and go on, or fault `Unwritten(MR)` (10_state.md R22). -/
def withMessage (go : Byte → Bytes → State → State) (s : State) : State :=
  match s.mr.opcode, s.mr.payload with
  | some opc, some pay => go opc pay s
  | _, _ => s.faultCaller .unwrittenMR

/-- Write a whole message into `MR`. -/
def State.setMessage (s : State) (opc : Byte) (pay : Bytes) : State := s.withMr { opcode := some opc, payload := some pay }

/-- The error a failed decode or resolve raises on the port (60_exceptions.md R320). -/
def errOfDecode : DecodeError → Err
  | .incomplete => .malformedIncomplete
  | .badSync => .malformedBadSync
  | .payloadTooLong => .malformedPayloadTooLong
  | .checksumMismatch skip => .checksumMismatch skip
  | .unknownMessageType opc => .unknownMessageType opc

/-- Answer the kind of an opcode byte, or raise `UnknownMessageType` (40_codec.md R130). -/
def respondKind (opc : Byte) (s : State) : State :=
  match resolve s.cfg opc with
  | some k => s.ok (.kind k)
  | none => s.raise (.unknownMessageType opc)

/-- `MSG.NEW opc, bs` (40_codec.md R120). -/
def execMsgNew (opc : Nat) (bs : Bytes) (s : State) : Answer :=
  onPort (.msgNew opc bs) true
    (fun s =>
      if opc > 255 then s.raise (.valueOutOfRange .opcode)
      else if bs.length > maxPayload then s.raise (.lengthError .payload)
      else (s.setMessage (BitVec.ofNat 8 opc) bs).ok .nothing)
    hold s

/-- `MSG.SETOP v` (R131). -/
def execMsgSetop (v : Nat) (s : State) : Answer :=
  onPort (.msgSetop v) true
    (fun s =>
      if v > 255 then s.raise (.valueOutOfRange .opcode)
      else (s.withMr { s.mr with opcode := some (BitVec.ofNat 8 v) }).ok .nothing)
    hold s

/-- `MSG.SETPAY bs` (R132). -/
def execMsgSetpay (bs : Bytes) (s : State) : Answer :=
  onPort (.msgSetpay bs) true
    (fun s =>
      if bs.length > maxPayload then s.raise (.lengthError .payload)
      else (s.withMr { s.mr with payload := some bs }).ok .nothing)
    hold s

/-- `MSG.ENCODE` (R121). -/
def execMsgEncode (s : State) : Answer :=
  onPort .msgEncode true (withMessage fun opc pay s => s.ok (.bytes (encodeF opc pay))) hold s

/-- `MSG.CHECKSUM` (R133). -/
def execMsgChecksum (s : State) : Answer :=
  onPort .msgChecksum true
    (withMessage fun opc pay s => s.ok (.num (chk (BitVec.ofNat 8 pay.length) opc pay).toNat)) hold s

/-- `MSG.DECODE raw` (R122 to R129, R138). -/
def execMsgDecode (raw : Bytes) (s : State) : Answer :=
  onPort (.msgDecode raw) true
    (fun s =>
      match decodeF raw with
      | .error e => s.raise (errOfDecode e)
      | .ok (opc, pay, n) => (s.setMessage opc pay).ok (.num n))
    hold s

/-- `MSG.RESOLVE opc` (R130). -/
def execMsgResolve (opc : Nat) (s : State) : Answer :=
  onPort (.msgResolve opc) true
    (fun s =>
      if opc > 255 then s.raise (.valueOutOfRange .opcode)
      else respondKind (BitVec.ofNat 8 opc) s)
    hold s

/-- `MSG.RESOLVE_MR` (R134). -/
def execMsgResolveMr (s : State) : Answer :=
  onPort .msgResolveMr true
    (fun s =>
      match s.mr.opcode with
      | none => s.faultCaller .unwrittenMR
      | some opc => respondKind opc s)
    hold s

end Sys2Proof.Machine
end

