-- ==== Sys2Proof/Machine/Pump.lean ====
section
/-! DEFINITION. The pump operations on the command port (42_pump.md, sections 3 and 4). -/

namespace Sys2Proof.Machine

/-- `PUMP.START` (42_pump.md R212). -/
def execPumpStart (s : State) : Answer :=
  onPort .pumpStart true
    (fun s =>
      if s.pump.running then s.ok .nothing
      else (s.withPump s.pump.spawn).setPhase .waitPumpUp)
    (fun phase s =>
      match phase with
      | .waitPumpUp => if s.pump.alive then s.ok .nothing else s
      | _ => s)
    s

/-- `PUMP.STOP` (R217). -/
def execPumpStop (s : State) : Answer :=
  onPort .pumpStop true
    (fun s =>
      if s.pump.running then (s.withPump s.pump.signalStop).setPhase .waitPumpDown
      else s.ok .nothing)
    (fun phase s =>
      match phase with
      | .waitPumpDown => if s.pump.alive then s else (s.withPump s.pump.confirmStop).ok .nothing
      | _ => s)
    s

/-- The registry with `l` added at its end unless it is there (R214). -/
def register (l : ListenerId) (reg : List ListenerId) : List ListenerId :=
  if reg.contains l then reg else reg ++ [l]

/-- The registry without `l`; the built-in collectors stay (R215). -/
def unregister (l : ListenerId) (reg : List ListenerId) : List ListenerId :=
  match l with
  | .ackCollector | .msgCollector => reg
  | .channelL _ _ | .external _ => reg.filter fun x => decide (x ≠ l)

/-- `PUMP.REG l` (R214). -/
def execPumpReg (l : ListenerId) (s : State) : Answer :=
  onPort (.pumpReg l) (s.node.names l)
    (fun s => (s.withPump { s.pump with reg := register l s.pump.reg }).ok .nothing) hold s

/-- `PUMP.UNREG l` (R215; assumption 17). -/
def execPumpUnreg (l : ListenerId) (s : State) : Answer :=
  onPort (.pumpUnreg l) (s.node.names l)
    (fun s => (s.withPump { s.pump with reg := unregister l s.pump.reg }).ok .nothing) hold s

/-- `PUMP.WRITE` (R219). -/
def execPumpWrite (s : State) : Answer :=
  onPort .pumpWrite true (withMessage fun opc pay => sendFrame opc pay (State.ok .nothing)) hold s

/-- `PUMP.WAITACK opc` (R210). -/
def execPumpWaitack (opc : Nat) (s : State) : Answer :=
  onPort (.pumpWaitack opc) true
    (fun s =>
      if opc > 255 then s.raise (.valueOutOfRange .opcode)
      else s.setPhase .waitAck)
    (fun phase =>
      match phase with
      | .waitAck => takeAck opc fun e => State.ok (.num e.code.toNat)
      | _ => fun s => s)
    s

/-- The kind with a number 0..20 (30_encoding.md R89). -/
def kindOfNumber (n : Nat) : Option Kind := Kind.all[n]?

/-- `PUMP.WAITMSG kind` (R211). -/
def execPumpWaitmsg (kind : Nat) (s : State) : Answer :=
  onPort (.pumpWaitmsg kind) true
    (fun s =>
      match kindOfNumber kind with
      | none => s.raise (.valueOutOfRange .kind)
      | some _ => s.setPhase .waitMsg)
    (fun phase s =>
      match phase, kindOfNumber kind with
      | .waitMsg, some k => takeMsg k (fun e => State.ok (.message { opcode := e.opcode, payload := e.payload })) s
      | _, _ => s)
    s

end Sys2Proof.Machine
end

