-- ==== Sys2Proof/Machine/Node.lean ====
section
/-! DEFINITION. The node operations (43_node.md): start, stop, capability negotiation, network keys and slot lookups. Each
labelled step of the spec is one step of the port. -/

namespace Sys2Proof.Machine

/-- The payload of SYSTEM_RESET (41_variants.md R159). -/
def resetPayload : Bytes := [0x00]

/-- The payload of the capabilities request: CHANNEL_REQUEST on channel 0 for the CAPABILITIES opcode (43_node.md R255). -/
def capabilitiesRequest : Bytes := [0x00, 0x54]

/-! ## Network keys -/

/-- The payload of a NETWORK_KEY frame: network number, then the key (41_variants.md R157). -/
def keyPayload (idx : Nat) (slot : NetSlot) : Bytes := BitVec.ofNat 8 idx :: slot.key

/-- Replace the name and key of network slot `idx` (43_node.md R258). -/
def Node.setKey (n : Node) (idx : Nat) (name key : Bytes) : Node :=
  { n with nets := n.nets.modify idx fun k => { k with name := .text name, key := key } }

/-- The stamp: `N.nets[idx].index <- idx`; nothing if the table has no such slot (R258; assumption 16). -/
def Node.stamp (n : Node) (idx : Nat) : Node :=
  { n with nets := n.nets.modify idx fun k => { k with index := BitVec.ofNat 8 idx } }

/-- The end of step K1: write the NETWORK_KEY frame of slot `idx`, note the request and wait for its ack (R258). -/
def pushKey (idx : Nat) (s : State) : State :=
  match s.node.nets[idx]? with
  | none => s.raise (.valueOutOfRange .index)
  | some slot =>
    sendFrame 0x46 (keyPayload idx slot)
      (fun t => (t.setReq { opcode := 0x46, payload := keyPayload idx slot }).setPhase .waitAck) s

/-- Step K1 of `NODE.SETKEY` (R258). -/
def issueSetKey (idx : Nat) (replacement : Option (Bytes × Bytes)) (s : State) : State :=
  if idx ≥ s.node.nets.length then s.raise (.valueOutOfRange .index)
  else
    match replacement with
    | none => pushKey idx s
    | some (name, key) =>
      if key.length ≠ 8 then s.raise (.lengthError (.field .key))
      else pushKey idx (s.withNode (s.node.setKey idx name key))

/-- Step K2 of `NODE.SETKEY`: take the ack, check its code, stamp the slot, then `go` on (R258). -/
def keyAcked (idx : Nat) (go : State → State) (s : State) : State :=
  takeAck 0x46
    (fun e t =>
      if e.code ≠ t.cfg.responseNoError then t.raise (.nodeError .setNetworkKey)
      else go (t.withNode (t.node.stamp idx)))
    s

/-! ## Capability negotiation -/

/-- A new network slot at index i (43_node.md R255, step C2). -/
def NetSlot.fresh (i : Nat) : NetSlot where
  index := BitVec.ofNat 8 i
  name := .placeholder i
  key := List.replicate 8 0x00

/-- A new channel slot at index i (R256). -/
def ChanSlot.fresh (gen i : Nat) : ChanSlot where
  index := BitVec.ofNat 8 i
  gen := gen
  state := .free
  name := .text []
  cbs := []

/-- Step C1: request the capabilities (R255). -/
def capsRequest (s : State) : State :=
  match s.node.state with
  | .notStarted | .stopped => s.raise .notStarted
  | .running => sendFrame 0x4D capabilitiesRequest (fun t => t.setPhase .waitMsg) s

/-- Step C2: take the reply, record the two limits, allocate the network slots (R255). -/
def capsReply (s : State) : State :=
  takeMsg .capabilities
    (fun e t =>
      let nNets := replyByte e.payload 1
      (t.withNode
          { t.node with
            maxChannels := some (replyByte e.payload 0)
            maxNetworks := some nNets
            nets := (List.range nNets.toNat).map NetSlot.fresh }).modifySeq
        fun q => { q with i := 0, phase := .negKeys, reply := e.payload })
    s

/-- Channel allocation (R256): a new generation of `count` slots, each registered as a listener; the old ones are kept. -/
def allocateChannels (count : Nat) (s : State) : State :=
  let gen := s.node.gen + 1
  (s.withNode
      { s.node with
        gen := gen
        oldChans := s.node.oldChans ++ s.node.chans
        chans := (List.range count).map (ChanSlot.fresh gen) }).withPump
    { s.pump with reg := s.pump.reg ++ (List.range count).map (ListenerId.channelL gen) }

/-- Record the option bytes of the reply (R255, step C5). -/
def recordOptions (reply : Bytes) (s : State) : State :=
  s.withNode
    { s.node with
      stdOpts := some (replyByte reply 2)
      advOpts := some (replyByte reply 3)
      advOpts2 := some (replyByte reply 4) }

/-- Step C5: allocate the channels, record the options and respond (R255). -/
def capsFinish (s : State) : State :=
  match s.node.maxChannels with
  | none => s.faultCaller .unwrittenCapability
  | some n => (recordOptions s.seq.reply (allocateChannels n.toNat s)).ok .nothing

/-- Step C3: push the key of the slot the counter names, or finish when all are pushed (R255). -/
def capsPush (s : State) : State :=
  match s.node.maxNetworks with
  | none => s.faultCaller .unwrittenCapability
  | some n => if s.seq.i = n.toNat then capsFinish s else issueSetKey s.seq.i none s

/-- Steps K2 and C4: the slot's ack, then the counter goes up and the pushing goes on (R255; assumption 10). -/
def capsKeyAcked (s : State) : State :=
  keyAcked s.seq.i (fun t => t.modifySeq fun q => { q with i := q.i + 1, phase := .negKeys }) s

/-- The steps of a negotiation after C1, as the phase names them (R255). -/
def capsResume (phase : Phase) (s : State) : State :=
  match phase with
  | .waitMsg => capsReply s
  | .negKeys => capsPush s
  | .waitAck => capsKeyAcked s
  | .idle | .waitClosed | .waitPumpUp | .waitPumpDown | .settle | .faulted _ => s

/-! ## Start and stop -/

/-- Write the SYSTEM_RESET frame and go on. -/
def sendReset (go : State → State) (s : State) : State := sendFrame 0x4A resetPayload go s

/-- Step S1 of `NODE.START` (43_node.md R251). -/
def nodeStartIssue (s : State) : State :=
  match s.node.state with
  | .running => s.raise .alreadyStarted
  | .notStarted | .stopped =>
    match s.transportIsOpen with
    | none => s.raise .transportError
    | some true => sendReset (fun t => t.setPhase .settle) s
    | some false =>
      match s.transportOpen with
      | (.error, t) => t.raise .transportError
      | (.done, t) => sendReset (fun u => u.setPhase .settle) t

/-- Step S2 of `NODE.START`: the settle, then the issue of a pump start (R251, R252). -/
def nodeSettled (s : State) : State :=
  (if s.pump.running then s else s.withPump s.pump.spawn).setPhase .waitPumpUp

/-- Step S3 of `NODE.START`, with step C1 of the negotiation in the same step (R251; assumption 9). -/
def nodeUp (s : State) : State :=
  if s.pump.alive then capsRequest (s.withNode { s.node with state := .running }) else s

/-- Step T3 of `NODE.STOP` (R253). -/
def nodeStopFinish (s : State) : State :=
  match (s.withNode { s.node with state := .stopped }).transportClose with
  | (.done, t) => t.ok .nothing
  | (.error, t) => t.raise .transportError

/-- Step T1 of `NODE.STOP` after the reset frame (R253). -/
def nodeStopSignal (s : State) : State :=
  if s.pump.running then (s.withPump s.pump.signalStop).setPhase .waitPumpDown else nodeStopFinish s

/-- Step T1 of `NODE.STOP` (R253). -/
def nodeStopIssue (reset : Bool) (s : State) : State :=
  match s.node.state with
  | .notStarted | .stopped => s.raise .notStarted
  | .running => if reset then sendReset nodeStopSignal s else nodeStopSignal s

/-- Steps T2 and T3 of `NODE.STOP` (R253). -/
def nodeDown (s : State) : State :=
  if s.pump.alive then s else nodeStopFinish (s.withPump s.pump.confirmStop)

/-! ## The operations -/

/-- `NODE.START` (43_node.md R251). -/
def execNodeStart (s : State) : Answer :=
  onPort .nodeStart true nodeStartIssue
    (fun phase s =>
      match phase with
      | .settle => nodeSettled s
      | .waitPumpUp => nodeUp s
      | .waitMsg | .negKeys | .waitAck => capsResume phase s
      | .idle | .waitClosed | .waitPumpDown | .faulted _ => s)
    s

/-- `NODE.STOP reset`; a request that leaves `reset` out means true (R253). -/
def execNodeStop (reset : Option Bool) (s : State) : Answer :=
  onPort (.nodeStop reset) true (nodeStopIssue (reset.getD true))
    (fun phase s =>
      match phase with
      | .waitPumpDown => nodeDown s
      | _ => s)
    s

/-- `NODE.CAPS` (R255). -/
def execNodeCaps (s : State) : Answer := onPort .nodeCaps true capsRequest capsResume s

/-- `NODE.SETKEY idx [, name, key]` (R258). -/
def execNodeSetkey (idx : Nat) (replacement : Option (Bytes × Bytes)) (s : State) : Answer :=
  onPort (.nodeSetkey idx replacement) true (issueSetKey idx replacement)
    (fun phase s =>
      match phase with
      | .waitAck => keyAcked idx (State.ok .nothing) s
      | _ => s)
    s

/-- `NODE.FREECH` (R260; assumption 19). -/
def execNodeFreech (s : State) : Answer :=
  onPort .nodeFreech true
    (fun s =>
      match s.node.freeChannel with
      | some i => s.ok (.num i)
      | none => s.raise (.notFound .channel))
    hold s

/-- `NODE.GETKEY name` (R261). -/
def execNodeGetkey (name : Bytes) (s : State) : Answer :=
  onPort (.nodeGetkey name) true
    (fun s =>
      match s.node.networkIndex name with
      | some i => s.ok (.num i)
      | none => s.raise (.notFound .network))
    hold s

end Sys2Proof.Machine
end

