-- ==== Sys2Proof/Machine/Variant.lean ====
section
/-! DEFINITION. The variant operations on the message register (41_variants.md). Each is one step. -/

namespace Sys2Proof.Machine

/-- The field an accessor names must belong to the variant in `MR`, and a setter's value must have the field's sort; where no
variant is held, the operation is admitted and its own checks answer (41_variants.md R146, 60_exceptions.md R333;
assumption 20). -/
def State.acceptsField (s : State) (f : FieldName) (sort : FieldType → Bool) : Bool :=
  match s.mr.opcode with
  | none => true
  | some opc =>
    match resolve s.cfg opc with
    | none => true
    | some k =>
      match k.fieldAt f with
      | none => false
      | some (_, ty) => sort ty

/-- `k <- resolve(MR.opcode)`, then field `f`'s offset and type in variant k; the errors of 41_variants.md R146 in their order. -/
def withField (f : FieldName) (go : Kind → Nat → FieldType → State → State) (s : State) : State :=
  match s.mr.opcode with
  | none => s.faultCaller .unwrittenMR
  | some opc =>
    match resolve s.cfg opc with
    | none => s.raise (.unknownMessageType opc)
    | some k =>
      match k.fieldAt f with
      | none => s
      | some (o, ty) => go k o ty s

/-- The value a field read answers. -/
def resultOfValue : Value → Result
  | .num n => .num n
  | .bytes bs => .bytes bs

/-- `VAR.BUILD kind, f1, ..., fn` (41_variants.md R145). -/
def execVarBuild (kind : Kind) (fields : List Value) (s : State) : Answer :=
  onPort (.varBuild kind fields) (kind.takes fields)
    (fun s =>
      match kind.buildError fields with
      | some e => s.raise e
      | none => (s.setMessage (kind.opcode s.cfg) (kind.buildPayload fields)).ok .nothing)
    hold s

/-- `VAR.GET f` (R146, R148). -/
def execVarGet (f : FieldName) (s : State) : Answer :=
  onPort (.varGet f) (s.acceptsField f fun _ => true)
    (withField f fun _ o ty s =>
      match s.mr.payload with
      | none => s.faultCaller .unwrittenMR
      | some pay =>
        match readField o ty pay with
        | none => s.raise (.fieldOutOfBounds f)
        | some v => s.ok (resultOfValue v))
    hold s

/-- `VAR.SET f, v` (R147, R148, R170). -/
def execVarSet (f : FieldName) (v : Value) (s : State) : Answer :=
  onPort (.varSet f v) (s.acceptsField f fun ty => ty.takes v)
    (withField f fun k o ty s =>
      match ty.valueError f o v with
      | some e => s.raise e
      | none =>
        match s.mr.payload with
        | none => s.faultCaller .unwrittenMR
        | some pay =>
          match writeField k f o ty v pay with
          | none => s.raise (.fieldOutOfBounds f)
          | some pay' => (s.withMr { s.mr with payload := some pay' }).ok .nothing)
    hold s

end Sys2Proof.Machine
end

