-- ==== Sys2Proof/Machine/Dispatch.lean ====
section
/-! DEFINITION. One arm per instruction: each calls that instruction's own meaning. -/

namespace Sys2Proof.Machine

def exec (i : Instr) (s : State) : Host.Outcome State Fault Refusal :=
  match i with
  | .channelUnassign payload => Sys2Proof.Machine.execChannelUnassign payload s
  | .channelAssign payload => Sys2Proof.Machine.execChannelAssign payload s
  | .channelId payload => Sys2Proof.Machine.execChannelId payload s
  | .channelPeriod payload => Sys2Proof.Machine.execChannelPeriod payload s
  | .channelSearchTimeout payload => Sys2Proof.Machine.execChannelSearchTimeout payload s
  | .channelFrequency payload => Sys2Proof.Machine.execChannelFrequency payload s
  | .channelTxPower payload => Sys2Proof.Machine.execChannelTxPower payload s
  | .networkKey payload => Sys2Proof.Machine.execNetworkKey payload s
  | .txPower payload => Sys2Proof.Machine.execTxPower payload s
  | .systemReset payload => Sys2Proof.Machine.execSystemReset payload s
  | .channelOpen payload => Sys2Proof.Machine.execChannelOpen payload s
  | .channelClose payload => Sys2Proof.Machine.execChannelClose payload s
  | .channelRequest payload => Sys2Proof.Machine.execChannelRequest payload s
  | .channelBroadcastData payload => Sys2Proof.Machine.execChannelBroadcastData payload s
  | .channelAcknowledgedData payload => Sys2Proof.Machine.execChannelAcknowledgedData payload s
  | .channelBurstData payload => Sys2Proof.Machine.execChannelBurstData payload s
  | .channelEvent payload => Sys2Proof.Machine.execChannelEvent payload s
  | .channelStatus payload => Sys2Proof.Machine.execChannelStatus payload s
  | .version payload => Sys2Proof.Machine.execVersion payload s
  | .capabilities payload => Sys2Proof.Machine.execCapabilities payload s
  | .serialNumber payload => Sys2Proof.Machine.execSerialNumber payload s
  | .msgNew opc bs => Sys2Proof.Machine.execMsgNew opc bs s
  | .msgSetop v => Sys2Proof.Machine.execMsgSetop v s
  | .msgSetpay bs => Sys2Proof.Machine.execMsgSetpay bs s
  | .msgEncode => Sys2Proof.Machine.execMsgEncode s
  | .msgChecksum => Sys2Proof.Machine.execMsgChecksum s
  | .msgDecode raw => Sys2Proof.Machine.execMsgDecode raw s
  | .msgResolve opc => Sys2Proof.Machine.execMsgResolve opc s
  | .msgResolveMr => Sys2Proof.Machine.execMsgResolveMr s
  | .varBuild kind fields => Sys2Proof.Machine.execVarBuild kind fields s
  | .varGet field => Sys2Proof.Machine.execVarGet field s
  | .varSet field v => Sys2Proof.Machine.execVarSet field v s
  | .pumpStart => Sys2Proof.Machine.execPumpStart s
  | .pumpStop => Sys2Proof.Machine.execPumpStop s
  | .pumpReg l => Sys2Proof.Machine.execPumpReg l s
  | .pumpUnreg l => Sys2Proof.Machine.execPumpUnreg l s
  | .pumpWrite => Sys2Proof.Machine.execPumpWrite s
  | .pumpWaitack opc => Sys2Proof.Machine.execPumpWaitack opc s
  | .pumpWaitmsg kind => Sys2Proof.Machine.execPumpWaitmsg kind s
  | .nodeStart => Sys2Proof.Machine.execNodeStart s
  | .nodeStop reset => Sys2Proof.Machine.execNodeStop reset s
  | .nodeCaps => Sys2Proof.Machine.execNodeCaps s
  | .nodeSetkey idx replacement => Sys2Proof.Machine.execNodeSetkey idx replacement s
  | .nodeFreech => Sys2Proof.Machine.execNodeFreech s
  | .nodeGetkey name => Sys2Proof.Machine.execNodeGetkey name s
  | .chAssign ch name type => Sys2Proof.Machine.execChAssign ch name type s
  | .chSetid ch dev dtype ttype => Sys2Proof.Machine.execChSetid ch dev dtype ttype s
  | .chSetto ch v => Sys2Proof.Machine.execChSetto ch v s
  | .chSetper ch v => Sys2Proof.Machine.execChSetper ch v s
  | .chSetfreq ch v => Sys2Proof.Machine.execChSetfreq ch v s
  | .chOpen ch => Sys2Proof.Machine.execChOpen ch s
  | .chClose ch => Sys2Proof.Machine.execChClose ch s
  | .chUnassign ch => Sys2Proof.Machine.execChUnassign ch s
  | .chReg ch cb => Sys2Proof.Machine.execChReg ch cb s
  | .chUnreg ch cb => Sys2Proof.Machine.execChUnreg ch cb s

end Sys2Proof.Machine
end

