-- ==== Sys2Proof/Machine/Worker.lean ====
section
/-! DEFINITION. The pump agent (42_pump.md, sections 1 and 2) and the fetch: which agent the schedule names, and which instruction,
if any, its step runs. -/

namespace Sys2Proof.Machine

/-- What a scheduled step comes to: an instruction to run in a state, or a state in which the step is over. -/
inductive Fetched where
  | run (i : Instr) (s : State)
  | done (s : State)
deriving DecidableEq, Repr

/-! ## Scan -/

/-- The scan loop (42_pump.md R203, R204): drop every frame with a bad checksum from the front, then the first instruction with
the rest of the buffer, or none where the loop ends. `fuel` bounds the turns; a skip drops at least 4 bytes, so the buffer's
length is always enough. -/
def scanFrames (cfg : Config) : Nat → Bytes → Option Instr × Bytes
  | 0, buf => (none, buf)
  | fuel + 1, buf =>
    match decode cfg buf with
    | .error (.checksumMismatch skip) => scanFrames cfg fuel (buf.drop skip)
    | .error .incomplete | .error .badSync | .error .payloadTooLong | .error (.unknownMessageType _) => (none, buf)
    | .ok (i, n) => (some i, buf.drop n)

/-- Scan step: the next frame's instruction with its bytes consumed, or the end of the iteration (R203). -/
def scanStep (s : State) : Fetched :=
  match scanFrames s.cfg s.pump.rxBuf.length s.pump.rxBuf with
  | (some i, buf) => .run i (s.withPump { s.pump with rxBuf := buf })
  | (none, buf) => .done (s.withPump { s.pump with rxBuf := buf, it := .read })

/-! ## Begin, read, exit -/

/-- Begin step (R213). -/
def beginStep (s : State) : State := s.withPump { s.pump with rxBuf := [], it := .read, alive := true }

/-- Exit step (R218). -/
def exitStep (s : State) : State := s.withPump { s.pump with alive := false }

/-- Read step; a transport error is the pump fault (R202, R216). -/
def readStep (s : State) : State :=
  match s.rxRead with
  | (.got bs, t) => t.withPump { t.pump with rxBuf := t.pump.rxBuf ++ bs, it := .scan }
  | (.error, t) => t.withPump { t.pump with faulted := true }

/-! ## Deliver -/

/-- The phase with targets `ts` left: `Scan` when none is (R205). -/
def dispatchRest (m : Entry) (ts : List Target) : PumpPhase := if ts.isEmpty then .scan else .dispatch m ts

/-- `E.it` after a delivery with targets `ts` left. -/
def State.deliverRest (s : State) (m : Entry) (ts : List Target) : State :=
  s.withPump { s.pump with it := dispatchRest m ts }

/-- The callback targets of slot (g, i) for message m: its callbacks as they stand now if the filter passes, else none
(42_pump.md R205, 44_channel.md R297). -/
def callbackTargets (n : Node) (g i : Nat) (m : Entry) : List Target :=
  if channelFilter i m then ((n.slot? g i).map fun c => c.cbs.map (Target.cb g i)).getD [] else []

/-- Invoke an external listener or a callback on LSN: the step completes when the environment returns, and a failure is swallowed
(42_pump.md R220). -/
def invokeListener (m : Entry) (t : Target) (rest : List Target) (s : State) : State :=
  match s.turn.answers.listener with
  | .pending => s
  | .returned | .failed => (s.withEnv { s.env with lsn := s.env.lsn ++ [(t, m)] }).deliverRest m rest

/-- Deliver step: message m to target t, with targets `rest` after it (R205, R207, R208). -/
def deliverStep (m : Entry) (t : Target) (rest : List Target) (s : State) : State :=
  match t with
  | .listener .ackCollector =>
    (if m.kind = .channelEvent then s.withPump { s.pump with ackQ := qInsert s.pump.ackQ m } else s).deliverRest m rest
  | .listener .msgCollector => (s.withPump { s.pump with msgQ := qInsert s.pump.msgQ m }).deliverRest m rest
  | .listener (.channelL g i) => s.deliverRest m (callbackTargets s.node g i m ++ rest)
  | .listener (.external n) => invokeListener m (.listener (.external n)) rest s
  | .cb g i c => invokeListener m (.cb g i c) rest s

/-! ## The pump agent -/

/-- The pump agent's next step (R200); where none is enabled, nothing changes (assumption 12). -/
def workerStep (s : State) : Fetched :=
  if s.pump.canBegin then .done (beginStep s)
  else if s.pump.working then
    match s.pump.it with
    | .read => .done (if s.pump.stopReq then exitStep s else readStep s)
    | .scan => scanStep s
    | .dispatch m (t :: rest) => .done (deliverStep m t rest s)
    | .dispatch _ [] => .done s
  else .done s

/-! ## The callers -/

/-- A request on the port in turn: admitted if it is an operation and the port is `Idle` (10_state.md R49). -/
def requestStep (i : Instr) (s : State) : Fetched :=
  if i.isCommand ∧ s.seq.phase = .idle then .run i s else .done s

/-- The next step of the operation in progress on the port in turn, if there is one. -/
def callerStep (s : State) : Fetched :=
  match s.seq.op with
  | some i => if i.isCommand ∧ s.seq.phase ≠ .idle then .run i s else .done s
  | none => .done s

/-! ## The schedule -/

/-- The first entry of the schedule, taken: whose step it is and what that step runs. With no entry left no agent moves
(assumptions 2 and 12). -/
def fetch (s : State) : Fetched :=
  match s.inputs with
  | [] => .done s
  | ev :: rest =>
    let t := s.withInputs rest
    match ev.agent with
    | .request k i => requestStep i (t.withTurn { port := k, answers := ev.answers })
    | .caller k => callerStep (t.withTurn { port := k, answers := ev.answers })
    | .pump => workerStep (t.withTurn { t.turn with answers := ev.answers })
    | .blockReset => .done t.blockReset
    | .transport isOpen => .done (t.withEnv { t.env with tOpen := isOpen })

/-- `s` with a frame's bytes at the front of the receive buffer of a working pump in its scan phase, and the pump's step next in
the schedule. -/
def State.placeFrame (s : State) (frame : Bytes) : State :=
  (s.withPump
      { s.pump with
        running := true
        alive := true
        faulted := false
        it := .scan
        rxBuf := frame ++ s.pump.rxBuf }).withInputs
    ({ agent := .pump, answers := .quiet } :: s.inputs)

end Sys2Proof.Machine
end

