-- ==== Sys2Proof/Machine/Step.lean ====
section
/-! DEFINITION. One step of the machine: the schedule's next entry is fetched, and the instruction it comes to, if any, runs. -/

namespace Sys2Proof.Machine

/-- One atomic step of one agent (20_memory.md R64). -/
def step (s : State) : Host.Outcome State Fault Refusal :=
  match fetch s with
  | .run i t => exec i t
  | .done t => .next t

/-- `s` with the frame that stands for a word of the opcode table stored where the next step, a scan of the pump, fetches it
(assumptions 3 and 25). -/
def State.withFetchWord (s : State) (nbits w : Nat) : State := s.placeFrame (frameOfTableWord s.cfg nbits w)

end Sys2Proof.Machine
end

