-- ==== Sys2Proof/Machine/Codes.lean ====
section
/-! DEFINITION. The numeric codes of responses on a command port (60_exceptions.md R320, 92_eei_decisions.md D8). -/

namespace Sys2Proof.Machine

/-- The code of an error (R320). -/
def Err.code : Err → Byte
  | .malformedIncomplete => 0x01
  | .malformedBadSync => 0x02
  | .malformedPayloadTooLong => 0x03
  | .checksumMismatch _ => 0x04
  | .unknownMessageType _ => 0x05
  | .valueOutOfRange _ => 0x06
  | .lengthError _ => 0x07
  | .fieldOutOfBounds _ => 0x08
  | .channelError _ => 0x09
  | .nodeError _ => 0x0A
  | .alreadyStarted => 0x0B
  | .notStarted => 0x0C
  | .notFound _ => 0x0D
  | .stateError => 0x0E
  | .transportError => 0x0F

/-- The code of a response; OK is 0x00 (R320). -/
def Response.code : Response → Byte
  | .ok _ => 0x00
  | .error e => e.code

/-- The operation number a `ChannelError` carries (R320). -/
def ChannelOp.number : ChannelOp → Nat
  | .assign => 0
  | .setID => 1
  | .setSearchTimeout => 2
  | .setPeriod => 3
  | .setFrequency => 4
  | .opening => 5
  | .closing => 6
  | .unassign => 7

/-- The operation number a `NodeError` carries (R320). -/
def NodeOp.number : NodeOp → Nat
  | .setNetworkKey => 0

end Sys2Proof.Machine
end

