-- ==== Sys2Proof/Safety.lean ====
section
/-! DEFINITION. What a state of the block must be in every run: the invariants the spec states of its registers, queues, flags,
tables and sequencers. -/

namespace Sys2Proof

/-- The generation a listener identifier names; the other listeners name none. -/
def ListenerId.gen? : ListenerId → Option Nat
  | .channelL g _ => some g
  | .ackCollector | .msgCollector | .external _ => none

/-- Whether the operation negotiates capabilities. -/
def Instr.negotiates : Instr → Bool
  | i => decide (i = .nodeStart) || decide (i = .nodeCaps)

end Sys2Proof

namespace Sys2Proof.Machine

/-! ## Messages and queues -/

/-- The payload of `MR`, if written, has at most 9 bytes (10_state.md R21). -/
abbrev MR.Bounded (m : MR) : Prop := (m.payload.getD []).length ≤ maxPayload

/-- A dispatched message: at most 9 payload bytes, and the opcode of its kind (42_pump.md R221). -/
abbrev Entry.Sound (cfg : Config) (e : Entry) : Prop :=
  e.payload.length ≤ maxPayload ∧ e.opcode = e.kind.opcode cfg

/-- The message in dispatch, if there is one. -/
def PumpPhase.message? : PumpPhase → Option Entry
  | .read | .scan => none
  | .dispatch m _ => some m

/-- Both queues hold at most 25 sound entries, the ack queue only channel events, and the message in dispatch is sound
(R26, R27, R221). -/
abbrev Pump.QueuesSound (cfg : Config) (p : Pump) : Prop :=
  p.ackQ.length ≤ queueCap ∧ p.msgQ.length ≤ queueCap
    ∧ (∀ e ∈ p.ackQ, e.Sound cfg ∧ e.kind = .channelEvent)
    ∧ (∀ e ∈ p.msgQ, e.Sound cfg)
    ∧ (∀ m ∈ p.it.message?, m.Sound cfg)

/-- Messages are bounded and the queues sound. -/
abbrev State.MessagesSound (s : State) : Prop := s.mr.Bounded ∧ s.pump.QueuesSound s.cfg

/-! ## Pump flags -/

/-- A faulted worker is alive, and a worker that is alive or told to stop has been started (10_state.md R24, 42_pump.md R216). -/
abbrev Pump.FlagsSound (p : Pump) : Prop :=
  (p.faulted = true → p.alive = true) ∧ (p.alive = true → p.running = true) ∧ (p.stopReq = true → p.running = true)

/-! ## Slot tables and registry -/

/-- Network slots: as many as `N.maxNetworks` says, each at its index, each key of 8 bytes (10_state.md R35, R41). -/
abbrev Node.NetsSound (n : Node) : Prop :=
  n.nets.length = (n.maxNetworks.getD 0).toNat
    ∧ n.nets.map (fun k => k.index) = (List.range n.nets.length).map (BitVec.ofNat 8)
    ∧ ∀ k ∈ n.nets, k.key.length = 8

/-- Channel slots: at most 255, each at its index and of the current generation, old ones of earlier generations, callbacks
distinct (10_state.md R36, R37, R38, R40). -/
abbrev Node.ChansSound (n : Node) : Prop :=
  n.chans.length ≤ 255
    ∧ n.chans.map (fun c => c.index) = (List.range n.chans.length).map (BitVec.ofNat 8)
    ∧ (∀ c ∈ n.chans, c.gen = n.gen)
    ∧ (∀ c ∈ n.oldChans, c.gen < n.gen)
    ∧ ∀ c ∈ n.chans ++ n.oldChans, c.cbs.Nodup

/-- The registry holds distinct listeners, begins with the two collectors, and names no generation to come
(10_state.md R30, R31). -/
abbrev State.RegistrySound (s : State) : Prop :=
  s.pump.reg.Nodup ∧ s.pump.reg.take 2 = [.ackCollector, .msgCollector]
    ∧ ∀ l ∈ s.pump.reg, ∀ g ∈ l.gen?, g ≤ s.node.gen

/-- The tables and the registry are sound. -/
abbrev State.TablesSound (s : State) : Prop := s.node.NetsSound ∧ s.node.ChansSound ∧ s.RegistrySound

/-! ## Sequencers -/

/-- An idle sequencer has no operation, request or channel; one that is not idle runs a command-port operation; the counter is
0..255, and below 255 while a key push of a negotiation waits for its ack (10_state.md R44, R49; 43_node.md R255). -/
abbrev Seq.Sound (q : Seq) : Prop :=
  (q.phase = .idle → q.op = none ∧ q.req = none ∧ q.ch = none)
    ∧ (q.phase ≠ .idle → (q.op.map Instr.isCommand).getD false = true)
    ∧ q.i ≤ 255
    ∧ (q.phase = .waitAck → (q.op.map Instr.negotiates).getD false = true → q.i < 255)

/-- There is one sequencer for each caller, each of them sound (10_state.md R43). The counter's bound rests on the size of the
network table. -/
abbrev State.SequencersSound (s : State) : Prop :=
  s.seqs.length = s.cfg.numCallers ∧ (∀ q ∈ s.seqs, q.Sound) ∧ s.node.nets.length ≤ 255

/-! ## Stuck framer -/

/-- A receive buffer the framer never gets past: at least 5 bytes without a sync byte in front, or with a length byte above 9, or
a good frame of unknown opcode (42_pump.md R222). -/
def Wedged (cfg : Config) (buf : Bytes) : Bool :=
  match decode cfg buf with
  | .error .badSync | .error .payloadTooLong | .error (.unknownMessageType _) => true
  | .error .incomplete | .error (.checksumMismatch _) | .ok _ => false

/-! ## Observation -/

/-- The machine without its logger and what the logger has been told (60_exceptions.md R345). -/
def State.withoutLogger (s : State) : State :=
  { s with cfg := { s.cfg with logger := false }, env := { s.env with trace := [] } }

end Sys2Proof.Machine
end

