-- ==== Sys2Proof/WellFormed.lean ====
section
/-! DEFINITION. Which instructions are well formed, as far as the instruction alone decides it. Requests that only the state
shows ill formed (a field of another variant, a listener of no slot) are turned away by the meanings (60_exceptions.md R333). -/

namespace Sys2Proof

/-- A frame's payload has at most 9 bytes (10_state.md R21); `VAR.BUILD` gives each field of its kind one value of its sort
(41_variants.md R145). Every other request is well formed by its type. -/
def Instr.wellFormed (i : Instr) : Bool :=
  match i.frame?, i with
  | some (_, p), _ => decide (p.length ≤ maxPayload)
  | none, .varBuild k vs => k.takes vs
  | none, _ => true

end Sys2Proof
end

