-- ==== Sys2Proof/Certificates/Slice0/Obligations.lean ====
section
/-! DEFINITION. The statements for the provers. The first part writes the spec's tables and next states in its own words; the
statements follow, family by family. -/

namespace Sys2Proof.Claims

open Sys2Proof.Machine

/-! ## States before and after a step, in the spec's words -/

/-- The port in turn exists and its sequencer is `Idle`. -/
abbrev PortIdle (s : State) : Prop := (s.seqs[s.turn.port]?).map (fun q => q.phase) = some .idle

/-- Operation `i` is in progress on the port in turn, in phase `p`. -/
abbrev InPhase (s : State) (i : Instr) (p : Phase) : Prop :=
  (s.seqs[s.turn.port]?).map (fun q => (q.op, q.phase)) = some (some i, p)

/-- The counter `SEQ[k].i` of the port in turn. -/
abbrev CounterIs (s : State) (n : Nat) : Prop := (s.seqs[s.turn.port]?).map (fun q => q.i) = some n

/-- The channel index `SEQ[k].ch` of the port in turn. -/
abbrev ChannelIs (s : State) (ch : Nat) : Prop := (s.seqs[s.turn.port]?).map (fun q => q.ch) = some (some ch)

/-- The transport is open and answers a write with a count. -/
abbrev Writable (s : State) (n : Nat) : Prop := s.env.tOpen = true ∧ s.turn.answers.write = .wrote n

/-- `close()` succeeds: the transport is open and answers no error (60_exceptions.md R336). -/
abbrev Closable (s : State) : Prop := s.env.tOpen = true ∧ s.turn.answers.closing = .done

/-- `close()` fails: the transport is closed or answers an error. -/
abbrev Unclosable (s : State) : Prop := s.env.tOpen = false ∨ s.turn.answers.closing = .error

/-- A write cannot succeed: the transport is closed or answers an error. -/
abbrev Unwritable (s : State) : Prop := s.env.tOpen = false ∨ s.turn.answers.write = .error

/-- The port in turn answers `r`, as `env.responses` records it (assumption 23), and its sequencer is `Idle` again: `op`, `req` and `ch`
none, `i` as before (10_state.md R49). -/
def responded (s : State) (r : Response) : State :=
  { s with
    env := { s.env with responses := s.env.responses ++ [(s.turn.port, r)] }
    seqs := s.seqs.modify s.turn.port fun q =>
      { op := none, phase := .idle, req := none, ch := none, i := q.i, reply := [] } }

/-- The operation ends with OK and a result. -/
def succeeded (s : State) (r : Result) : State := responded s (.ok r)

/-- The operation ends with an error (60_exceptions.md R321). -/
def failed (s : State) (e : Err) : State := responded s (.error e)

/-- Operation `i` is in progress on the port in turn and waits in phase `p`; that admission writes `op` is assumption 13. -/
def waiting (s : State) (i : Instr) (p : Phase) : State :=
  { s with seqs := s.seqs.modify s.turn.port fun q => { q with op := some i, phase := p } }

/-- The sequencer of the port in turn goes to phase `p`. -/
def inPhase (s : State) (p : Phase) : State :=
  { s with seqs := s.seqs.modify s.turn.port fun q => { q with phase := p } }

/-- TX has carried `bs` in one call of `write`, which answered the count `n`, as `env.tx` records it (assumption 23). -/
def sent (s : State) (bs : Bytes) (n : Nat) : State :=
  { s with
    env :=
      { s.env with
        tx := s.env.tx ++ [bs]
        trace := if s.cfg.logger then s.env.trace ++ [.write bs (.wrote n)] else s.env.trace } }

/-- A call of `write` with `bs` has failed: TX carries nothing (assumption 23); its TRACE event is assumption 22's. -/
def notSent (s : State) (bs : Bytes) : State :=
  { s with
    env := { s.env with trace := if s.cfg.logger then s.env.trace ++ [.write bs .error] else s.env.trace } }

/-- A call with no effect but its TRACE event `ev`: one that has failed (assumption 22); `T.open` stays as it is (assumption 24). -/
def traced (s : State) (ev : TraceEvent) : State :=
  { s with env := { s.env with trace := if s.cfg.logger then s.env.trace ++ [ev] else s.env.trace } }

/-- A call of `open` has succeeded. -/
def transportOpened (s : State) : State :=
  { s with
    env :=
      { s.env with
        tOpen := true
        trace := if s.cfg.logger then s.env.trace ++ [.opening] else s.env.trace } }

/-- A call of `close` has succeeded. -/
def transportClosed (s : State) : State :=
  { s with
    env :=
      { s.env with
        tOpen := false
        trace := if s.cfg.logger then s.env.trace ++ [.closing] else s.env.trace } }

/-- A command has been written and the caller waits for its ack: `op` (assumption 13), `req` and `ch` say which (44_channel.md R281). -/
def commanded (s : State) (i : Instr) (m : Message) (ch : Option Nat) (n : Nat) : State :=
  { sent s (encodeF m.opcode m.payload) n with
    seqs := s.seqs.modify s.turn.port fun q =>
      { q with op := some i, phase := .waitAck, req := some m, ch := ch.or q.ch } }

/-- The state in which the schedule's first entry has been taken and its step begins (assumptions 2 and 4). -/
def turnTaken (s : State) (port : Nat) (a : Answers) (rest : List Event) : State :=
  { s with turn := { port := port, answers := a }, inputs := rest }

/-! ## Queues, in the spec's words -/

/-- `e` is the first entry of `q` that satisfies `P`: `a` stands before it and `b` after it. -/
def FirstIn (P : Entry → Prop) (q a : List Entry) (e : Entry) (b : List Entry) : Prop :=
  q = a ++ e :: b ∧ (∀ x ∈ a, ¬ P x) ∧ P e

/-- The entry is an ack of a request with opcode `opc` (42_pump.md R210). -/
def IsAckOf (opc : Nat) (e : Entry) : Prop := 3 ≤ e.payload.length ∧ (e.payload.getD 1 0).toNat = opc

/-- The ack queue after an ack has been taken from between `a` and `b`. -/
def ackTaken (s : State) (a b : List Entry) : State := { s with pump := { s.pump with ackQ := a ++ b } }

/-- The message queue after a message has been taken from between `a` and `b`. -/
def msgTaken (s : State) (a b : List Entry) : State := { s with pump := { s.pump with msgQ := a ++ b } }

/-! ## The table of channel operations (44_channel.md R283) -/

/-- A row of the table, with the operand ranges of R282. -/
structure ChanRow where
  ch : Nat
  opc : Byte
  payload : Bytes
  required : ChanState
  next : Option ChanState
  op : ChannelOp
  ranges : List (OperandName × Nat × Nat)

/-- The row of a channel command; `net` is the network index of `CH.ASSIGN`. -/
def chanRow (net : Nat) : Instr → Option ChanRow
  | .chAssign ch _ ty =>
    some ⟨ch, 0x42, [BitVec.ofNat 8 ch, BitVec.ofNat 8 ty, BitVec.ofNat 8 net], .free, some .assigned, .assign,
      [(.type, ty, 255)]⟩
  | .chSetid ch dev dt tt =>
    some ⟨ch, 0x51,
      [BitVec.ofNat 8 ch, BitVec.ofNat 8 dev, BitVec.ofNat 8 (dev / 256), BitVec.ofNat 8 dt, BitVec.ofNat 8 tt],
      .assigned, none, .setID, [(.dev, dev, 65535), (.dtype, dt, 255), (.ttype, tt, 255)]⟩
  | .chSetto ch v =>
    some ⟨ch, 0x44, [BitVec.ofNat 8 ch, BitVec.ofNat 8 v], .assigned, none, .setSearchTimeout, [(.v, v, 255)]⟩
  | .chSetper ch v =>
    some ⟨ch, 0x43, [BitVec.ofNat 8 ch, BitVec.ofNat 8 v, BitVec.ofNat 8 (v / 256)], .assigned, none, .setPeriod,
      [(.v, v, 65535)]⟩
  | .chSetfreq ch v =>
    some ⟨ch, 0x45, [BitVec.ofNat 8 ch, BitVec.ofNat 8 v], .assigned, none, .setFrequency, [(.v, v, 255)]⟩
  | .chOpen ch => some ⟨ch, 0x4B, [BitVec.ofNat 8 ch], .assigned, some .opened, .opening, []⟩
  | .chClose ch => some ⟨ch, 0x4C, [BitVec.ofNat 8 ch], .opened, some .assigned, .closing, []⟩
  | .chUnassign ch => some ⟨ch, 0x41, [BitVec.ofNat 8 ch], .assigned, some .free, .unassign, []⟩
  | _ => none

/-- Every ranged operand is at most its maximum. -/
abbrev ChanRow.InRange (r : ChanRow) : Prop := ∀ e ∈ r.ranges, e.2.1 ≤ e.2.2

/-- The name a `CH.ASSIGN` is given stands at network slot `net` and at none before it; nothing for another operation. -/
def NamedAt (s : State) (net : Nat) : Instr → Prop
  | .chAssign _ name _ =>
    (s.node.nets[net]?).map (fun k => k.name) = some (.text name)
      ∧ ∀ j < net, (s.node.nets[j]?).map (fun k => k.name) ≠ some (.text name)
  | _ => True

/-- The state of current channel slot `ch` written, if there is such a slot. -/
def chanStateSet (s : State) (ch : Nat) (st : ChanState) : State :=
  { s with node := { s.node with chans := s.node.chans.modify ch fun c => { c with state := st } } }

/-- The two ways a message register read can fail: a field that nothing has written. -/
abbrev Unwritten (s : State) : Prop := s.mr.opcode = none ∨ s.mr.payload = none

/-- `SEQ[k].phase <- Faulted(Unwritten(MR))` (60_exceptions.md R334); that the operation stays in progress is assumption 13. -/
def mrFaulted (s : State) (i : Instr) : State := waiting s i (.faulted .unwrittenMR)

/-! ## Field values (30_encoding.md R97, 41_variants.md R147) -/

/-- The value is of the sort the field's type requires: a number or a byte string. -/
def OfSort : FieldType → Value → Prop
  | .byte, .num _ | .word, .num _ | .fixed _, .bytes _ | .rest, .bytes _ => True
  | .byte, .bytes _ | .word, .bytes _ | .fixed _, .num _ | .rest, .num _ => False

/-- A number above the field's maximum. -/
def TooBig : FieldType → Value → Prop
  | .byte, .num n => 255 < n
  | .word, .num n => 65535 < n
  | _, _ => False

/-- A byte string of the wrong length for a field at offset `o`. -/
def WrongLength (o : Nat) : FieldType → Value → Prop
  | .fixed n, .bytes bs => bs.length ≠ n
  | .rest, .bytes bs => 9 < o + bs.length
  | _, _ => False

/-! ## The opcode map and the payload layouts (30_encoding.md R90, R92, R93) -/

/-- A row of the opcode map: number, kind, opcode. -/
structure OpcodeRow where
  number : Nat
  kind : Kind
  opc : Byte

/-- The 21 rows of R90. -/
def opcodeRows (c : Config) : List OpcodeRow :=
  [⟨0, .channelUnassign, 0x41⟩, ⟨1, .channelAssign, 0x42⟩, ⟨2, .channelId, 0x51⟩, ⟨3, .channelPeriod, 0x43⟩,
   ⟨4, .channelSearchTimeout, 0x44⟩, ⟨5, .channelFrequency, 0x45⟩, ⟨6, .channelTxPower, c.opcChannelTxPower⟩,
   ⟨7, .networkKey, 0x46⟩, ⟨8, .txPower, c.opcTxPower⟩, ⟨9, .systemReset, 0x4A⟩, ⟨10, .channelOpen, 0x4B⟩,
   ⟨11, .channelClose, 0x4C⟩, ⟨12, .channelRequest, 0x4D⟩, ⟨13, .channelBroadcastData, 0x4E⟩,
   ⟨14, .channelAcknowledgedData, 0x4F⟩, ⟨15, .channelBurstData, 0x50⟩, ⟨16, .channelEvent, 0x40⟩,
   ⟨17, .channelStatus, 0x52⟩, ⟨18, .version, 0x3E⟩, ⟨19, .capabilities, 0x54⟩, ⟨20, .serialNumber, 0x61⟩]

/-- The fifteen channel-scoped kinds of R93. -/
def scopedKinds : List Kind :=
  [.channelUnassign, .channelAssign, .channelId, .channelPeriod, .channelSearchTimeout, .channelFrequency, .channelTxPower,
   .channelOpen, .channelClose, .channelRequest, .channelBroadcastData, .channelAcknowledgedData, .channelBurstData,
   .channelEvent, .channelStatus]

/-- The fields of a variant with their payload offsets and types, in the order of its rule (R92, 41_variants.md R150 to R171). -/
def fieldsOf : Kind → List (FieldName × Nat × FieldType)
  | .channelUnassign | .channelOpen | .channelClose => [(.channel, 0, .byte)]
  | .channelAssign => [(.channel, 0, .byte), (.chanType, 1, .byte), (.network, 2, .byte)]
  | .channelId => [(.channel, 0, .byte), (.deviceNumber, 1, .word), (.deviceType, 3, .byte), (.transType, 4, .byte)]
  | .channelPeriod => [(.channel, 0, .byte), (.period, 1, .word)]
  | .channelSearchTimeout => [(.channel, 0, .byte), (.timeout, 1, .byte)]
  | .channelFrequency => [(.channel, 0, .byte), (.frequency, 1, .byte)]
  | .channelTxPower => [(.channel, 0, .byte), (.power, 1, .byte)]
  | .channelRequest => [(.channel, 0, .byte), (.requested, 1, .byte)]
  | .channelStatus => [(.channel, 0, .byte), (.status, 1, .byte)]
  | .channelEvent => [(.channel, 0, .byte), (.origOpcode, 1, .byte), (.code, 2, .byte)]
  | .channelBroadcastData | .channelAcknowledgedData | .channelBurstData => [(.channel, 0, .byte), (.data, 1, .rest)]
  | .networkKey => [(.network, 0, .byte), (.key, 1, .fixed 8)]
  | .txPower => [(.power, 1, .byte)]
  | .systemReset => []
  | .version => [(.version, 0, .rest)]
  | .capabilities =>
    [(.maxChannels, 0, .byte), (.maxNetworks, 1, .byte), (.stdOpts, 2, .byte), (.advOpts, 3, .byte), (.advOpts2, 4, .byte)]
  | .serialNumber => [(.serial, 0, .fixed 4)]

/-- Field `f` of variant `k` stands at payload offset `o` with type `ty`. -/
abbrev HasField (k : Kind) (f : FieldName) (o : Nat) (ty : FieldType) : Prop := (f, o, ty) ∈ fieldsOf k

/-- Field `f` does not belong to variant `k`. -/
abbrev NoField (k : Kind) (f : FieldName) : Prop := ∀ e ∈ fieldsOf k, e.1 ≠ f

/-- One value for each field of the variant, `advOpts2` of CAPABILITIES left out or not, and each of its field's sort. -/
abbrev BuildShape (k : Kind) (vs : List Value) : Prop :=
  (vs.length = (fieldsOf k).length ∨ (k = .capabilities ∧ vs.length = 4)) ∧ ∀ x ∈ (fieldsOf k).zip vs, OfSort x.1.2.2 x.2

end Sys2Proof.Claims

open Sys2Proof Sys2Proof.Machine Sys2Proof.Claims

/-! ## Frames and checksum -/

/-- 30_encoding.md R83 to R85: the checksum is folded after every byte, L first, from the seed 0xA4; an update folds 0xFF to 0 and
changes no other exclusive OR; the checksum is never 0xFF, and a frame whose last byte is 0xFF is never decoded. -/
def Obligations.ChecksumIsNeverAllOnes : Prop :=
  (∀ c b : Byte, chkStep c b = if c ^^^ b = 0xFF then 0x00 else c ^^^ b)
    ∧ (∀ (len opc : Byte) (pay : Bytes),
        chk len opc pay = (len :: opc :: pay).foldl (fun c b => if c ^^^ b = 0xFF then 0x00 else c ^^^ b) 0xA4)
    ∧ (∀ (len opc : Byte) (pay : Bytes), chk len opc pay ≠ 0xFF)
    ∧ ∀ (raw : Bytes) (opc : Byte) (pay : Bytes) (n : Nat),
        decodeF raw = .ok (opc, pay, n) → raw.getD (n - 1) 0 ≠ 0xFF

/-- 40_codec.md R135. -/
def Obligations.FrameRoundTrip : Prop :=
  ∀ (opc : Byte) (pay : Bytes), 1 ≤ pay.length → pay.length ≤ 9 →
    decodeF (encodeF opc pay) = .ok (opc, pay, pay.length + 4)

/-- 40_codec.md R136. -/
def Obligations.EmptyPayloadFrameNeedsOneMoreByte : Prop :=
  ∀ opc : Byte, decodeF (encodeF opc []) = .error .incomplete
    ∧ ∀ x : Byte, decodeF (encodeF opc [] ++ [x]) = .ok (opc, [], 4)

/-- 40_codec.md R122 to R128: the checks in their order, and what each answers. -/
def Obligations.DecodeChecksInOrder : Prop :=
  ∀ raw : Bytes,
    (raw.length < 5 → decodeF raw = .error .incomplete)
    ∧ (5 ≤ raw.length → raw.getD 0 0 ≠ 0xA4 → decodeF raw = .error .badSync)
    ∧ (5 ≤ raw.length → raw.getD 0 0 = 0xA4 → 9 < (raw.getD 1 0).toNat → decodeF raw = .error .payloadTooLong)
    ∧ (5 ≤ raw.length → raw.getD 0 0 = 0xA4 → (raw.getD 1 0).toNat ≤ 9 → raw.length < (raw.getD 1 0).toNat + 4 →
        decodeF raw = .error .incomplete)
    ∧ (5 ≤ raw.length → raw.getD 0 0 = 0xA4 → (raw.getD 1 0).toNat ≤ 9 → (raw.getD 1 0).toNat + 4 ≤ raw.length →
        decodeF raw =
          if chk (raw.getD 1 0) (raw.getD 2 0) ((raw.drop 3).take (raw.getD 1 0).toNat)
              = raw.getD (3 + (raw.getD 1 0).toNat) 0
          then .ok (raw.getD 2 0, (raw.drop 3).take (raw.getD 1 0).toNat, (raw.getD 1 0).toNat + 4)
          else .error (.checksumMismatch ((raw.getD 1 0).toNat + 4)))

/-- 40_codec.md R129: what stands after a decoded frame does not affect the result. -/
def Obligations.DecodeIgnoresTrailingBytes : Prop :=
  ∀ (raw rest : Bytes) (opc : Byte) (pay : Bytes) (n : Nat),
    decodeF raw = .ok (opc, pay, n) → 5 ≤ n + rest.length → decodeF (raw.take n ++ rest) = .ok (opc, pay, n)

/-- 30_encoding.md R89 to R91, 40_codec.md R130: the 21 rows of the opcode map, numbered 0 to 20, one for each kind, give each kind its
number and its opcode; with lawful parameters `resolve` answers exactly the kind whose opcode it is given, so that a row's opcode
resolves to the row's kind and every other byte to none. The two opcodes that are parameters have the defaults of R90. -/
def Obligations.OpcodeMapIsOneToOne : Prop :=
  (Config.default.opcChannelTxPower = 0x60 ∧ Config.default.opcTxPower = 0x47)
    ∧ ∀ c : Config,
      (opcodeRows c).map (fun r => r.number) = List.range 21
      ∧ (∀ k : Kind, ∃ r ∈ opcodeRows c, r.kind = k)
      ∧ (∀ r ∈ opcodeRows c, r.kind.number = r.number ∧ r.kind.opcode c = r.opc)
      ∧ (c.wf = true →
        (∀ (b : Byte) (k : Kind), resolve c b = some k ↔ k.opcode c = b)
        ∧ (∀ r ∈ opcodeRows c, resolve c r.opc = some r.kind)
        ∧ ∀ b : Byte, (∀ r ∈ opcodeRows c, r.opc ≠ b) → resolve c b = none)

/-- 40_codec.md R121, R122, R129, R135, R136: decoding an encoded well-formed frame instruction gives it back with its length,
whatever follows it, as soon as 5 bytes are there. -/
def Obligations.DecodeOfEncodeIsTheInstruction : Prop :=
  ∀ (c : Config) (i : Instr) (frame rest : Bytes), c.wf = true → i.wellFormed = true → encode c i = some frame →
    5 ≤ frame.length + rest.length → decode c (frame ++ rest) = .ok (i, frame.length)

/-- Frames written out in 95_test_vectors.md V30, V13 and V18 decode, or do not, as they are said to. -/
def Obligations.WrittenFramesDecode : Prop :=
  decode .default [0xA4, 0x03, 0x43, 0x02, 0x86, 0x1F, 0x7F] = .ok (.channelPeriod [0x02, 0x86, 0x1F], 7)
    ∧ decode .default [0xA4, 0x01, 0x41, 0x02, 0xE6] = .ok (.channelUnassign [0x02], 5)
    ∧ decode .default [0xA4, 0x01, 0x4B, 0x11, 0x00] = .ok (.channelOpen [0x11], 5)
    ∧ decode .default [0xA4, 0x02, 0x60, 0x02, 0x03, 0xC7] = .ok (.channelTxPower [0x02, 0x03], 6)
    ∧ decode .default [0xA4, 0x01, 0x4A, 0x00, 0xEE] = .error (.checksumMismatch 5)
    ∧ decode .default [0xA4, 0x01, 0x00, 0x00, 0xA5] = .error (.unknownMessageType 0x00)

/-! ## Steps -/

/-- A pump step in the scan phase whose buffer begins with a frame consumes the frame and runs its instruction. R203 gives the scan as
one step; that it is split into dropping the bytes and running the frame as an instruction is the model's choice (assumption 1). -/
def Obligations.StepRunsTheDecodedFrame : Prop :=
  ∀ (s : State) (a : Answers) (rest : List Event) (i : Instr) (n : Nat),
    s.inputs = { agent := .pump, answers := a } :: rest → s.pump.alive = true → s.pump.faulted = false →
    s.pump.it = .scan → decode s.cfg s.pump.rxBuf = .ok (i, n) →
    step s =
      exec i { turnTaken s s.turn.port a rest with pump := { s.pump with rxBuf := s.pump.rxBuf.drop n } }

/-- A request on an `Idle` port, and the next step of an operation in progress, run the operation; a request on a busy port has no
step (10_state.md R20, R49), which in the model is a step that only takes the schedule's entry (assumption 11). -/
def Obligations.StepRunsTheOperationOnThePort : Prop :=
  ∀ (s : State) (k : Nat) (i : Instr) (a : Answers) (rest : List Event) (q : Seq),
    s.seqs[k]? = some q → i.isCommand = true →
    (s.inputs = { agent := .request k i, answers := a } :: rest → q.phase = .idle →
        step s = exec i (turnTaken s k a rest))
    ∧ (s.inputs = { agent := .request k i, answers := a } :: rest → q.phase ≠ .idle →
        step s = .next (turnTaken s k a rest))
    ∧ (s.inputs = { agent := .caller k, answers := a } :: rest → q.phase ≠ .idle → q.op = some i →
        step s = exec i (turnTaken s k a rest))

/-- A frame with a bad checksum at the front of the buffer is dropped, exactly `L + 4` bytes, and the same step goes on with
what follows; any other decode failure, and a good frame of unknown opcode, end the iteration and leave the buffer as it is
(42_pump.md R203, R204). -/
def Obligations.ScanSkipsOrStops : Prop :=
  ∀ (s : State) (a : Answers) (rest : List Event),
    s.inputs = { agent := .pump, answers := a } :: rest → s.pump.alive = true → s.pump.faulted = false →
    s.pump.it = .scan →
    (∀ skip, decodeF s.pump.rxBuf = .error (.checksumMismatch skip) →
      skip = (s.pump.rxBuf.getD 1 0).toNat + 4 ∧ skip ≤ s.pump.rxBuf.length
        ∧ step s = step { s with pump := { s.pump with rxBuf := s.pump.rxBuf.drop skip } })
    ∧ ∀ e, decode s.cfg s.pump.rxBuf = .error e → (∀ skip, e ≠ .checksumMismatch skip) →
      step s = .next { turnTaken s s.turn.port a rest with pump := { s.pump with it := .read } }

/-- 42_pump.md R200, R202, R213, R216, R218: begin, read, a failing read, and exit. That a failing read too has a TRACE event is the
model's reading of 60_exceptions.md R345 (assumption 22). -/
def Obligations.WorkerBeginsReadsAndExits : Prop :=
  ∀ (s : State) (a : Answers) (rest : List Event), s.inputs = { agent := .pump, answers := a } :: rest →
    (s.pump.running = true → s.pump.alive = false → s.pump.stopReq = false → s.pump.faulted = false →
      step s = .next { turnTaken s s.turn.port a rest with
        pump := { s.pump with rxBuf := [], it := .read, alive := true } })
    ∧ (s.pump.alive = true → s.pump.faulted = false → s.pump.it = .read → s.pump.stopReq = false →
        ∀ bs, s.env.tOpen = true → 1 ≤ s.cfg.readChunk → a.read = .got bs → bs.length ≤ s.cfg.readChunk →
        step s = .next { turnTaken s s.turn.port a rest with
          pump := { s.pump with rxBuf := s.pump.rxBuf ++ bs, it := .scan }
          env := { s.env with
            trace := if s.cfg.logger then s.env.trace ++ [.read (.got bs)] else s.env.trace } })
    ∧ (s.pump.alive = true → s.pump.faulted = false → s.pump.it = .read → s.pump.stopReq = false →
        (s.env.tOpen = false ∨ a.read = .error) →
        step s = .next { turnTaken s s.turn.port a rest with
          pump := { s.pump with faulted := true }
          env := { s.env with
            trace := if s.cfg.logger then s.env.trace ++ [.read .error] else s.env.trace } })
    ∧ (s.pump.alive = true → s.pump.faulted = false → s.pump.it = .read → s.pump.stopReq = true →
        step s = .next { turnTaken s s.turn.port a rest with pump := { s.pump with alive := false } })

/-- 42_pump.md R205, R207, R208, R220: a deliver step to a collector captures the message; one to an external listener or a callback
invokes it, a return and a failure being alike, and holds until the environment answers. The message goes on to the remaining targets,
or the scan goes on when none is left. That a pending invocation's step changes nothing is assumption 12, and that LSN records an
invocation when it has returned is assumption 23. -/
def Obligations.MessageIsDelivered : Prop :=
  ∀ (s : State) (a : Answers) (rest : List Event) (m : Entry) (t : Target) (ts : List Target),
    s.inputs = { agent := .pump, answers := a } :: rest → s.pump.alive = true → s.pump.faulted = false →
    s.pump.it = .dispatch m (t :: ts) →
    let next : PumpPhase := if ts = [] then .scan else .dispatch m ts
    (t = .listener .ackCollector →
      step s = .next { turnTaken s s.turn.port a rest with
        pump := { s.pump with
          ackQ := if m.kind = .channelEvent then (m :: s.pump.ackQ).take 25 else s.pump.ackQ
          it := next } })
    ∧ (t = .listener .msgCollector →
      step s = .next { turnTaken s s.turn.port a rest with
        pump := { s.pump with msgQ := (m :: s.pump.msgQ).take 25, it := next } })
    ∧ ((∃ n, t = .listener (.external n)) ∨ (∃ g i c, t = .cb g i c) →
      (a.listener ≠ .pending →
        step s = .next { turnTaken s s.turn.port a rest with
          pump := { s.pump with it := next }
          env := { s.env with lsn := s.env.lsn ++ [(t, m)] } })
      ∧ (a.listener = .pending → step s = .next (turnTaken s s.turn.port a rest)))

/-- 44_channel.md R297, 42_pump.md R205: the channel listener of slot (g, i) hands a message of a channel-scoped kind
(30_encoding.md R93) whose payload byte 0 is i to the slot's callbacks, in order, and no other message; the slot's state plays no part.
That an expansion to no target, with none after it, goes to `Scan` in the same step is assumption 15. -/
def Obligations.ChannelListenerFilters : Prop :=
  ∀ (s : State) (a : Answers) (rest : List Event) (m : Entry) (g i : Nat) (ts : List Target) (slot : ChanSlot),
    s.inputs = { agent := .pump, answers := a } :: rest → s.pump.alive = true → s.pump.faulted = false →
    s.pump.it = .dispatch m (.listener (.channelL g i) :: ts) →
    (s.node.chans ++ s.node.oldChans).find? (fun c => decide (c.gen = g ∧ c.index.toNat = i)) = some slot →
    let next := if m.kind ∈ scopedKinds ∧ 1 ≤ m.payload.length ∧ (m.payload.getD 0 0).toNat = i
      then slot.cbs.map (Target.cb g i) ++ ts else ts
    step s = .next { turnTaken s s.turn.port a rest with
      pump := { s.pump with it := if next = [] then .scan else .dispatch m next } }

/-- 42_pump.md R206. -/
def Obligations.QueuesKeepTheNewest25 : Prop :=
  (∀ (q : List Entry) (m : Entry), qInsert q m = (m :: q).take 25)
    ∧ ∀ ms : List Entry, ms.foldl qInsert [] = ms.reverse.take 25

/-- 42_pump.md R209: the most recent match is taken and removed; without a match nothing is. -/
def Obligations.TakeFindsTheMostRecentMatch : Prop :=
  ∀ (P : Entry → Bool) (q : List Entry),
    (∀ a e b, FirstIn (fun x => P x = true) q a e b → qTake P q = some (e, a ++ b))
    ∧ (∀ e q', qTake P q = some (e, q') → ∃ a b, FirstIn (fun x => P x = true) q a e b ∧ q' = a ++ b)
    ∧ (qTake P q = none ↔ ∀ x ∈ q, P x = false)

/-! ## Reset -/

/-- 10_state.md R50, for every choice of the parameters. -/
def Obligations.ResetValues : Prop :=
  ∀ c : Config,
    let s := State.resetWith c
    s.mr.opcode = none ∧ s.mr.payload = none
    ∧ s.pump.running = false ∧ s.pump.alive = false ∧ s.pump.stopReq = false ∧ s.pump.faulted = false
    ∧ s.pump.rxBuf = [] ∧ s.pump.ackQ = [] ∧ s.pump.msgQ = []
    ∧ s.pump.reg = [.ackCollector, .msgCollector] ∧ s.pump.it = .read
    ∧ s.node.state = .notStarted ∧ s.node.maxChannels = none ∧ s.node.maxNetworks = none
    ∧ s.node.stdOpts = none ∧ s.node.advOpts = none ∧ s.node.advOpts2 = none
    ∧ s.node.nets = [] ∧ s.node.chans = [] ∧ s.node.oldChans = [] ∧ s.node.gen = 0
    ∧ s.seqs.length = c.numCallers
    ∧ ∀ q ∈ s.seqs, q.op = none ∧ q.phase = .idle ∧ q.req = none ∧ q.ch = none ∧ q.i = 0

/-- 70_reset_and_hazards.md R360, R361: block reset gives every element of the block its reset value and leaves the parameters and
the environment as they are. -/
def Obligations.BlockResetStep : Prop :=
  ∀ (s : State) (a : Answers) (rest : List Event), s.inputs = { agent := .blockReset, answers := a } :: rest →
    step s = .next { State.resetWith s.cfg with env := s.env, turn := s.turn, inputs := rest }

/-- The invariants of Safety.lean hold at reset, for every choice of the parameters. -/
def Obligations.ResetIsSound : Prop :=
  ∀ c : Config, (State.resetWith c).MessagesSound ∧ (State.resetWith c).pump.FlagsSound
    ∧ (State.resetWith c).TablesSound ∧ (State.resetWith c).SequencersSound

/-! ## Invariants every step keeps -/

/-- 10_state.md R21, R26 to R28, 42_pump.md R221. -/
def Obligations.StepKeepsMessagesSound : Prop :=
  ∀ s t : State, s.MessagesSound → step s = .next t → t.MessagesSound

/-- 10_state.md R24, 42_pump.md R216. -/
def Obligations.StepKeepsPumpFlagsSound : Prop :=
  ∀ s t : State, s.pump.FlagsSound → step s = .next t → t.pump.FlagsSound

/-- 10_state.md R30, R31, R35 to R38, R40, R41. -/
def Obligations.StepKeepsTablesSound : Prop :=
  ∀ s t : State, s.TablesSound → step s = .next t → t.TablesSound

/-- 10_state.md R43, R44, R49. -/
def Obligations.StepKeepsSequencersSound : Prop :=
  ∀ s t : State, s.SequencersSound → step s = .next t → t.SequencersSound

/-- 10_state.md R47: the parameters do not change at run time. -/
def Obligations.StepKeepsTheParameters : Prop := ∀ s t : State, step s = .next t → t.cfg = s.cfg

/-- The model's choice (assumptions 11 and 12): no step ends the run, because errors are responses and faults are phases
(60_exceptions.md R321, R326, R334). -/
def Obligations.StepNeverStops : Prop := ∀ s : State, ∃ t : State, step s = .next t

/-! ## Rules of the whole machine -/

/-- 42_pump.md R222: once the buffer is wedged, no step of any agent but block reset shortens it or dispatches a message while
the worker lives, and it stays wedged. -/
def Obligations.FramerStaysWedged : Prop :=
  ∀ s t : State, Wedged s.cfg s.pump.rxBuf = true → s.pump.alive = true → (s.pump.it = .read ∨ s.pump.it = .scan) →
    (∀ ev ∈ s.inputs.head?, ev.agent ≠ .blockReset) → step s = .next t →
    s.pump.rxBuf <+: t.pump.rxBuf ∧ Wedged t.cfg t.pump.rxBuf = true
      ∧ (t.pump.it = .read ∨ t.pump.it = .scan)
      ∧ List.Sublist t.pump.msgQ s.pump.msgQ ∧ List.Sublist t.pump.ackQ s.pump.ackQ ∧ t.env.lsn = s.env.lsn

/-- 42_pump.md R201: the pump agent never writes `MR`, the node or a sequencer; only the pump agent (and block reset) writes the
receive buffer or the iteration phase, or invokes a listener. -/
def Obligations.PumpAndCallersKeepApart : Prop :=
  ∀ (s t : State) (ev : Event) (rest : List Event), s.inputs = ev :: rest → step s = .next t →
    (ev.agent = .pump → t.mr = s.mr ∧ t.node = s.node ∧ t.seqs = s.seqs ∧ t.env.tx = s.env.tx
      ∧ t.env.responses = s.env.responses)
    ∧ (ev.agent ≠ .pump → ev.agent ≠ .blockReset →
        t.pump.rxBuf = s.pump.rxBuf ∧ t.pump.it = s.pump.it ∧ t.env.lsn = s.env.lsn)

/-- 40_codec.md R138: an operation that raises an error writes neither field of `MR`. Stated of every instruction. -/
def Obligations.ErrorsLeaveMrAlone : Prop :=
  ∀ (i : Instr) (s t : State) (p : Nat) (e : Err), exec i s = .next t →
    t.env.responses = s.env.responses ++ [(p, .error e)] → t.mr = s.mr

/-- 42_pump.md R216, 60_exceptions.md R334, R335: a faulted pump stays faulted and its agent takes no step, and a faulted sequencer
keeps its state and its port gives no response, until block reset. That the step of an agent held (60_exceptions.md R343) changes
nothing but the schedule is assumption 12. -/
def Obligations.FaultsAreForGood : Prop :=
  ∀ (s t : State) (ev : Event) (rest : List Event), s.inputs = ev :: rest → ev.agent ≠ .blockReset → step s = .next t →
    (s.pump.faulted = true →
      t.pump.faulted = true ∧ t.pump.alive = s.pump.alive
        ∧ (ev.agent = .pump → t = turnTaken s s.turn.port ev.answers rest))
    ∧ ∀ (k : Nat) (q : Seq) (f : Fault), s.seqs[k]? = some q → q.phase = .faulted f →
      t.seqs[k]? = some q ∧ ∀ r, (k, r) ∈ t.env.responses → (k, r) ∈ s.env.responses

/-- 44_channel.md R291: a slot becomes `Open` only in the step of a `CH.OPEN` that takes the most recent ack for opcode 0x4B, with code
`RESPONSE_NO_ERROR`, from the queue, and whose sequencer names the slot. -/
def Obligations.ChannelOpensOnlyOnItsAck : Prop :=
  ∀ (s t : State) (j : Nat), step s = .next t →
    (t.node.chans[j]?).map (fun c => c.state) = some .opened →
    (s.node.chans[j]?).map (fun c => c.state) ≠ some .opened →
    ∃ (k : Nat) (q : Seq) (a : Answers) (rest : List Event) (x y : List Entry) (e : Entry) (ch : Nat),
      s.inputs = { agent := .caller k, answers := a } :: rest ∧ s.seqs[k]? = some q
        ∧ q.op = some (.chOpen ch) ∧ q.phase = .waitAck ∧ q.ch = some j
        ∧ FirstIn (IsAckOf 0x4B) s.pump.ackQ x e y ∧ t.pump.ackQ = x ++ y
        ∧ e.payload.getD 2 0 = s.cfg.responseNoError

/-- 43_node.md R250: `N.state` is written by `NODE.START`, which makes it `Running`, by `NODE.STOP`, which makes it `Stopped`, and by
nothing else but block reset. -/
def Obligations.NodeStateMoves : Prop :=
  ∀ (i : Instr) (s t : State), exec i s = .next t → t.node.state ≠ s.node.state →
    (i = .nodeStart ∧ t.node.state = .running) ∨ ((∃ r, i = .nodeStop r) ∧ t.node.state = .stopped)

/-- 43_node.md R254. -/
def Obligations.NodeStopKeepsTheTables : Prop :=
  ∀ (r : Option Bool) (s t : State), exec (.nodeStop r) s = .next t →
    t.node.nets = s.node.nets ∧ t.node.chans = s.node.chans ∧ t.node.oldChans = s.node.oldChans
      ∧ t.pump.ackQ = s.pump.ackQ ∧ t.pump.msgQ = s.pump.msgQ ∧ t.pump.reg = s.pump.reg
      ∧ t.node.maxChannels = s.node.maxChannels ∧ t.node.maxNetworks = s.node.maxNetworks
      ∧ t.node.stdOpts = s.node.stdOpts ∧ t.node.advOpts = s.node.advOpts ∧ t.node.advOpts2 = s.node.advOpts2

/-- 10_state.md R49: a port answers exactly when its sequencer returns to `Idle`, at most once a step, with `op`, `req` and `ch` none
and `i` kept; no other port's sequencer changes. -/
def Obligations.ResponseComesWithIdle : Prop :=
  ∀ (i : Instr) (s t : State), exec i s = .next t →
    (∀ k, k ≠ s.turn.port → t.seqs[k]? = s.seqs[k]?)
    ∧ ((t.env.responses = s.env.responses
          ∧ ∀ q q', s.seqs[s.turn.port]? = some q → t.seqs[s.turn.port]? = some q' →
              q.phase ≠ .idle → q'.phase ≠ .idle)
      ∨ ∃ r q q', t.env.responses = s.env.responses ++ [(s.turn.port, r)]
          ∧ s.seqs[s.turn.port]? = some q ∧ t.seqs[s.turn.port]? = some q'
          ∧ q'.phase = .idle ∧ q'.op = none ∧ q'.req = none ∧ q'.ch = none ∧ q'.i = q.i)

/-- 60_exceptions.md R337, 30_encoding.md R99: a step hands TX at most one string, a whole frame; every operation but `PUMP.WRITE`
writes only the opcodes of R99. -/
def Obligations.TxCarriesWholeFrames : Prop :=
  ∀ (i : Instr) (s t : State), exec i s = .next t →
    t.env.tx = s.env.tx
      ∨ ∃ (opc : Byte) (pay : Bytes), t.env.tx = s.env.tx ++ [encodeF opc pay]
          ∧ (i ≠ .pumpWrite →
              opc ∈ ([0x4A, 0x4D, 0x46, 0x42, 0x51, 0x44, 0x43, 0x45, 0x4B, 0x4C, 0x41] : List Byte))

/-- 60_exceptions.md R345: two machines that differ only in the logger and what it has been told take the same steps. -/
def Obligations.LoggerChangesNothingElse : Prop :=
  ∀ s s' t : State, s.withoutLogger = s'.withoutLogger → step s = .next t →
    ∃ t' : State, step s' = .next t' ∧ t.withoutLogger = t'.withoutLogger

/-! ## Frame instructions -/

/-- All 21 frame opcodes (41_variants.md R150 to R171, 42_pump.md R203, R205): the message is put into dispatch with the registry as
it stands as its targets, and nothing else changes. -/
def Obligations.FrameIsPutIntoDispatch : Prop :=
  ∀ (i : Instr) (k : Kind) (pay : Bytes) (s : State), i.frame? = some (k, pay) →
    exec i s = .next { s with
      pump := { s.pump with
        it := .dispatch { opcode := k.opcode s.cfg, payload := pay, kind := k } (s.pump.reg.map .listener) } }

/-! ## Codec operations -/

/-- `MSG.NEW`, `MSG.SETOP`, `MSG.SETPAY`, and `MSG.ENCODE` and `MSG.CHECKSUM` of a written `MR` (40_codec.md R120, R121, R131 to
R133). -/
def Obligations.MessageIsWrittenAndRead : Prop :=
  ∀ s : State, PortIdle s →
    (∀ (opc : Nat) (bs : Bytes), exec (.msgNew opc bs) s = .next (
      if 255 < opc then failed s (.valueOutOfRange .opcode)
      else if 9 < bs.length then failed s (.lengthError .payload)
      else succeeded { s with mr := { opcode := some (BitVec.ofNat 8 opc), payload := some bs } } .nothing))
    ∧ (∀ v : Nat, exec (.msgSetop v) s = .next (
      if 255 < v then failed s (.valueOutOfRange .opcode)
      else succeeded { s with mr := { s.mr with opcode := some (BitVec.ofNat 8 v) } } .nothing))
    ∧ (∀ bs : Bytes, exec (.msgSetpay bs) s = .next (
      if 9 < bs.length then failed s (.lengthError .payload)
      else succeeded { s with mr := { s.mr with payload := some bs } } .nothing))
    ∧ ∀ (opc : Byte) (pay : Bytes), s.mr = { opcode := some opc, payload := some pay } →
      exec .msgEncode s = .next (succeeded s (.bytes (
        [0xA4, BitVec.ofNat 8 pay.length, opc] ++ pay ++ [chk (BitVec.ofNat 8 pay.length) opc pay])))
      ∧ exec .msgChecksum s = .next (succeeded s (.num (chk (BitVec.ofNat 8 pay.length) opc pay).toNat))

/-- 10_state.md R22, 60_exceptions.md R334, 95_test_vectors.md V21: a read of an unwritten `MR` faults the caller, and writes only its
sequencer; that `op` stays set is assumption 13. `MSG.RESOLVE_MR`, `VAR.GET` and `VAR.SET` read the opcode first. With the opcode
unwritten every field and value is admitted, and with the payload alone unwritten the checks that need only the opcode and the
value come before the fault (assumption 20). -/
def Obligations.UnwrittenMrFaultsTheCaller : Prop :=
  ∀ s : State, PortIdle s →
    (Unwritten s → ∀ i ∈ ([.msgEncode, .msgChecksum, .pumpWrite] : List Instr), exec i s = .next (mrFaulted s i))
    ∧ (s.mr.opcode = none →
        exec .msgResolveMr s = .next (mrFaulted s .msgResolveMr)
        ∧ (∀ f, exec (.varGet f) s = .next (mrFaulted s (.varGet f)))
        ∧ ∀ f v, exec (.varSet f v) s = .next (mrFaulted s (.varSet f v)))
    ∧ ∀ (opc : Byte) (f : FieldName), s.mr = { opcode := some opc, payload := none } →
        (resolve s.cfg opc = none →
          exec (.varGet f) s = .next (failed s (.unknownMessageType opc))
          ∧ ∀ v, exec (.varSet f v) s = .next (failed s (.unknownMessageType opc)))
        ∧ ∀ k, resolve s.cfg opc = some k →
          (NoField k f → exec (.varGet f) s = .next s ∧ ∀ v, exec (.varSet f v) s = .next s)
          ∧ ∀ o ty, HasField k f o ty →
            exec (.varGet f) s = .next (mrFaulted s (.varGet f))
            ∧ ∀ v,
              (¬ OfSort ty v → exec (.varSet f v) s = .next s)
              ∧ (TooBig ty v → exec (.varSet f v) s = .next (failed s (.valueOutOfRange (.field f))))
              ∧ (WrongLength o ty v → exec (.varSet f v) s = .next (failed s (.lengthError (.field f))))
              ∧ (OfSort ty v → ¬ TooBig ty v → ¬ WrongLength o ty v →
                  exec (.varSet f v) s = .next (mrFaulted s (.varSet f v)))

/-- `MSG.DECODE` (40_codec.md R122, R127, R138). -/
def Obligations.MessageDecodeResult : Prop :=
  ∀ (s : State) (raw : Bytes), PortIdle s →
    (∀ opc pay n, decodeF raw = .ok (opc, pay, n) →
      exec (.msgDecode raw) s = .next (succeeded { s with mr := { opcode := some opc, payload := some pay } } (.num n)))
    ∧ (decodeF raw = .error .incomplete → exec (.msgDecode raw) s = .next (failed s .malformedIncomplete))
    ∧ (decodeF raw = .error .badSync → exec (.msgDecode raw) s = .next (failed s .malformedBadSync))
    ∧ (decodeF raw = .error .payloadTooLong → exec (.msgDecode raw) s = .next (failed s .malformedPayloadTooLong))
    ∧ ∀ skip, decodeF raw = .error (.checksumMismatch skip) →
        exec (.msgDecode raw) s = .next (failed s (.checksumMismatch skip))

/-- `MSG.RESOLVE` and `MSG.RESOLVE_MR` (40_codec.md R130, R134). -/
def Obligations.MessageResolveResult : Prop :=
  ∀ s : State, s.cfg.wf = true → PortIdle s →
    (∀ opc : Nat, 255 < opc → exec (.msgResolve opc) s = .next (failed s (.valueOutOfRange .opcode)))
    ∧ (∀ k : Kind, exec (.msgResolve (k.opcode s.cfg).toNat) s = .next (succeeded s (.kind k)))
    ∧ (∀ b : Byte, (∀ k : Kind, k.opcode s.cfg ≠ b) →
        exec (.msgResolve b.toNat) s = .next (failed s (.unknownMessageType b)))
    ∧ (∀ k : Kind, s.mr.opcode = some (k.opcode s.cfg) → exec .msgResolveMr s = .next (succeeded s (.kind k)))
    ∧ ∀ b : Byte, s.mr.opcode = some b → (∀ k : Kind, k.opcode s.cfg ≠ b) →
        exec .msgResolveMr s = .next (failed s (.unknownMessageType b))

/-! ## Variant operations -/

/-- The payload `VAR.BUILD` gives each variant for values in range (41_variants.md R145, R150 to R171); SYSTEM_RESET is built without a
value (R159) and with its filler byte given (60_exceptions.md R330; assumption 18). -/
def Obligations.VariantsAreBuiltAsLaidOut : Prop :=
  ∀ s : State, PortIdle s →
    let built := fun (k : Kind) (vs : List Value) (pay : Bytes) =>
      exec (.varBuild k vs) s =
        .next (succeeded { s with mr := { opcode := some (k.opcode s.cfg), payload := some pay } } .nothing)
    (∀ a : Byte, ∀ k ∈ ([.channelUnassign, .channelOpen, .channelClose] : List Kind), built k [.num a.toNat] [a])
    ∧ (∀ a b : Byte, ∀ k ∈ ([.channelSearchTimeout, .channelFrequency, .channelTxPower, .channelRequest,
          .channelStatus] : List Kind), built k [.num a.toNat, .num b.toNat] [a, b])
    ∧ (∀ a b c : Byte, ∀ k ∈ ([.channelAssign, .channelEvent] : List Kind),
        built k [.num a.toNat, .num b.toNat, .num c.toNat] [a, b, c])
    ∧ (∀ a lo hi : Byte, built .channelPeriod [.num a.toNat, .num (lo.toNat + 256 * hi.toNat)] [a, lo, hi])
    ∧ (∀ a lo hi d t : Byte, built .channelId
        [.num a.toNat, .num (lo.toNat + 256 * hi.toNat), .num d.toNat, .num t.toNat] [a, lo, hi, d, t])
    ∧ (∀ (a : Byte) (key : Bytes), key.length = 8 → built .networkKey [.num a.toNat, .bytes key] (a :: key))
    ∧ (∀ p : Byte, built .txPower [.num p.toNat] [0x00, p])
    ∧ (built .systemReset [] [0x00] ∧ built .systemReset [.num 0x00] [0x00])
    ∧ (∀ (a : Byte) (data : Bytes), data.length ≤ 8 →
        ∀ k ∈ ([.channelBroadcastData, .channelAcknowledgedData, .channelBurstData] : List Kind),
          built k [.num a.toNat, .bytes data] (a :: data))
    ∧ (∀ v : Bytes, v.length ≤ 9 → built .version [.bytes v] v)
    ∧ (∀ a b c d : Byte, built .capabilities [.num a.toNat, .num b.toNat, .num c.toNat, .num d.toNat] [a, b, c, d]
        ∧ ∀ e : Byte, built .capabilities [.num a.toNat, .num b.toNat, .num c.toNat, .num d.toNat, .num e.toNat]
            [a, b, c, d, e])
    ∧ ∀ v : Bytes, v.length = 4 → built .serialNumber [.bytes v] v

/-- What `VAR.BUILD` does turn away (41_variants.md R145, 60_exceptions.md R333), for every kind: the first range error in field order,
else the first length error in field order, with `MR` left alone. A request with another number of values, or with a value of
another sort, is refused and changes nothing (assumption 11). -/
def Obligations.VariantBuildErrors : Prop :=
  ∀ (s : State) (k : Kind) (vs : List Value), PortIdle s →
    (BuildShape k vs →
      (∀ pre f o ty v post, (fieldsOf k).zip vs = pre ++ ((f, o, ty), v) :: post →
        (∀ x ∈ pre, ¬ TooBig x.1.2.2 x.2) → TooBig ty v →
        exec (.varBuild k vs) s = .next (failed s (.valueOutOfRange (.field f))))
      ∧ ((∀ x ∈ (fieldsOf k).zip vs, ¬ TooBig x.1.2.2 x.2) →
        ∀ pre f o ty v post, (fieldsOf k).zip vs = pre ++ ((f, o, ty), v) :: post →
          (∀ x ∈ pre, ¬ WrongLength x.1.2.1 x.1.2.2 x.2) → WrongLength o ty v →
          exec (.varBuild k vs) s = .next (failed s (.lengthError (.field f)))))
    ∧ (vs.length ≠ (fieldsOf k).length → ¬ (k = .capabilities ∧ vs.length = 4) →
        ¬ (k = .systemReset ∧ vs = [.num 0x00]) → exec (.varBuild k vs) s = .next s)
    ∧ ((∃ x ∈ (fieldsOf k).zip vs, ¬ OfSort x.1.2.2 x.2) → exec (.varBuild k vs) s = .next s)

/-- `VAR.GET` (41_variants.md R146, R148): the field at its offset, `FieldOutOfBounds` where the payload ends before it,
`UnknownMessageType` for an opcode of no variant; a field of another variant is refused and changes nothing (60_exceptions.md R333;
assumptions 11 and 20). -/
def Obligations.FieldReads : Prop :=
  ∀ (s : State) (opc : Byte) (pay : Bytes) (f : FieldName), PortIdle s →
    s.mr = { opcode := some opc, payload := some pay } →
    (resolve s.cfg opc = none → exec (.varGet f) s = .next (failed s (.unknownMessageType opc)))
    ∧ ∀ k, resolve s.cfg opc = some k →
      (NoField k f → exec (.varGet f) s = .next s)
      ∧ (∀ o, HasField k f o .byte → exec (.varGet f) s = .next (
          if pay.length < o + 1 then failed s (.fieldOutOfBounds f) else succeeded s (.num (pay.getD o 0).toNat)))
      ∧ (∀ o, HasField k f o .word → exec (.varGet f) s = .next (
          if pay.length < o + 2 then failed s (.fieldOutOfBounds f)
          else succeeded s (.num ((pay.getD o 0).toNat + 256 * (pay.getD (o + 1) 0).toNat))))
      ∧ (∀ o n, HasField k f o (.fixed n) → exec (.varGet f) s = .next (
          if pay.length < o + n then failed s (.fieldOutOfBounds f)
          else succeeded s (.bytes ((pay.drop o).take n))))
      ∧ ∀ o, HasField k f o .rest → exec (.varGet f) s = .next (
          if pay.length < o then failed s (.fieldOutOfBounds f) else succeeded s (.bytes (pay.drop o)))

/-- `VAR.SET` (41_variants.md R147, R148, R170): `UnknownMessageType` for an opcode of no variant, then range or length, then bounds,
then the bytes at the field's offset; the opcode stays. A field of another variant and a value of another sort are refused
and change nothing (60_exceptions.md R333; assumptions 11 and 20). -/
def Obligations.FieldWrites : Prop :=
  ∀ (s : State) (opc : Byte) (pay : Bytes) (f : FieldName), PortIdle s →
    s.mr = { opcode := some opc, payload := some pay } →
    let wrote := fun (p : Bytes) => succeeded { s with mr := { opcode := some opc, payload := some p } } .nothing
    (resolve s.cfg opc = none → ∀ v, exec (.varSet f v) s = .next (failed s (.unknownMessageType opc)))
    ∧ ∀ k, resolve s.cfg opc = some k →
      (NoField k f → ∀ v, exec (.varSet f v) s = .next s)
      ∧ ∀ o ty, HasField k f o ty →
        (∀ v, ¬ OfSort ty v → exec (.varSet f v) s = .next s)
        ∧ (∀ v : Nat, ty = .byte → ¬ (k = .capabilities ∧ f = .advOpts2) →
          exec (.varSet f (.num v)) s = .next (
            if 255 < v then failed s (.valueOutOfRange (.field f))
            else if pay.length < o + 1 then failed s (.fieldOutOfBounds f)
            else wrote (pay.take o ++ [BitVec.ofNat 8 v] ++ pay.drop (o + 1))))
        ∧ (∀ v : Nat, k = .capabilities → f = .advOpts2 →
          exec (.varSet f (.num v)) s = .next (
            if 255 < v then failed s (.valueOutOfRange (.field f))
            else if pay.length < 4 then failed s (.fieldOutOfBounds f)
            else wrote (pay.take 4 ++ [BitVec.ofNat 8 v] ++ pay.drop 5)))
        ∧ (∀ v : Nat, ty = .word →
          exec (.varSet f (.num v)) s = .next (
            if 65535 < v then failed s (.valueOutOfRange (.field f))
            else if pay.length < o + 2 then failed s (.fieldOutOfBounds f)
            else wrote (pay.take o ++ [BitVec.ofNat 8 v, BitVec.ofNat 8 (v / 256)] ++ pay.drop (o + 2))))
        ∧ (∀ (n : Nat) (v : Bytes), ty = .fixed n →
          exec (.varSet f (.bytes v)) s = .next (
            if v.length ≠ n then failed s (.lengthError (.field f))
            else if pay.length < o + n then failed s (.fieldOutOfBounds f)
            else wrote (pay.take o ++ v ++ pay.drop (o + n))))
        ∧ ∀ v : Bytes, ty = .rest →
          exec (.varSet f (.bytes v)) s = .next (
            if 9 < o + v.length then failed s (.lengthError (.field f))
            else if pay.length < o then failed s (.fieldOutOfBounds f)
            else wrote (pay.take o ++ v))

/-- A field that has been set reads back as the value it was given, and every other field of the variant reads as before
(41_variants.md R146, R147, R170). -/
def Obligations.FieldReadsBackAsSet : Prop :=
  ∀ (k : Kind) (f : FieldName) (o : Nat) (ty : FieldType) (v : Value) (pay pay' : Bytes),
    HasField k f o ty → OfSort ty v → ¬ TooBig ty v → ¬ WrongLength o ty v →
    writeField k f o ty v pay = some pay' →
    readField o ty pay' = some v
      ∧ ∀ (f' : FieldName) (o' : Nat) (ty' : FieldType) (v' : Value), f' ≠ f → HasField k f' o' ty' →
          readField o' ty' pay = some v' → readField o' ty' pay' = some v'

/-! ## Pump operations -/

/-- `PUMP.START` and `PUMP.STOP`, both steps of each (42_pump.md R212, R217).
A hold (20_memory.md R66) is a step that changes nothing (assumption 12). -/
def Obligations.PumpHandshakes : Prop :=
  ∀ s : State,
    (PortIdle s →
      exec .pumpStart s = .next (
        if s.pump.running = true then succeeded s .nothing
        else waiting { s with pump := { s.pump with running := true, stopReq := false } } .pumpStart .waitPumpUp)
      ∧ exec .pumpStop s = .next (
        if s.pump.running = false then succeeded s .nothing
        else waiting { s with pump := { s.pump with stopReq := true } } .pumpStop .waitPumpDown))
    ∧ (InPhase s .pumpStart .waitPumpUp →
        exec .pumpStart s = .next (if s.pump.alive = true then succeeded s .nothing else s))
    ∧ (InPhase s .pumpStop .waitPumpDown →
        exec .pumpStop s = .next (
          if s.pump.alive = true then s
          else succeeded { s with pump := { s.pump with running := false, stopReq := false } } .nothing))

/-- `PUMP.REG` and `PUMP.UNREG` (42_pump.md R214, R215, 60_exceptions.md R333). A refused request changes nothing (assumption 11); that
`PUMP.UNREG` too refuses a channel listener of no slot is the model's choice (assumption 17). -/
def Obligations.ListenerRegistration : Prop :=
  ∀ (s : State) (l : ListenerId), PortIdle s →
    ((∀ g i, l = .channelL g i → ∃ c ∈ s.node.chans ++ s.node.oldChans, c.gen = g ∧ c.index.toNat = i) →
      exec (.pumpReg l) s = .next (succeeded { s with
        pump := { s.pump with reg := if l ∈ s.pump.reg then s.pump.reg else s.pump.reg ++ [l] } } .nothing)
      ∧ exec (.pumpUnreg l) s = .next (succeeded { s with
        pump := { s.pump with
          reg := if l = .ackCollector ∨ l = .msgCollector then s.pump.reg
            else s.pump.reg.filter (fun x => x ≠ l) } } .nothing))
    ∧ (∀ g i, l = .channelL g i → (∀ c ∈ s.node.chans ++ s.node.oldChans, ¬ (c.gen = g ∧ c.index.toNat = i)) →
      exec (.pumpReg l) s = .next s ∧ exec (.pumpUnreg l) s = .next s)

/-- `PUMP.WRITE` of a written `MR` (42_pump.md R219, 60_exceptions.md R337, R339): the count is ignored. That a failed write too has a
TRACE event is the model's reading of R345 (assumption 22). -/
def Obligations.PumpWriteSendsTheMessage : Prop :=
  ∀ (s : State) (opc : Byte) (pay : Bytes), PortIdle s → s.mr = { opcode := some opc, payload := some pay } →
    (∀ n, Writable s n → exec .pumpWrite s = .next (succeeded (sent s (encodeF opc pay) n) .nothing))
    ∧ (Unwritable s → exec .pumpWrite s = .next (failed (notSent s (encodeF opc pay)) .transportError))

/-- `PUMP.WAITACK` and `PUMP.WAITMSG`: the issue, the take of the most recent match, and the hold (42_pump.md R210, R211).
A hold (20_memory.md R66) is a step that changes nothing (assumption 12). -/
def Obligations.WaitsTakeAMatch : Prop :=
  ∀ s : State,
    (∀ opc : Nat, PortIdle s → exec (.pumpWaitack opc) s = .next (
      if 255 < opc then failed s (.valueOutOfRange .opcode) else waiting s (.pumpWaitack opc) .waitAck))
    ∧ (∀ opc : Nat, InPhase s (.pumpWaitack opc) .waitAck →
      (∀ a e b, FirstIn (IsAckOf opc) s.pump.ackQ a e b →
        exec (.pumpWaitack opc) s = .next (succeeded (ackTaken s a b) (.num (e.payload.getD 2 0).toNat)))
      ∧ ((∀ e ∈ s.pump.ackQ, ¬ IsAckOf opc e) → exec (.pumpWaitack opc) s = .next s))
    ∧ (∀ n : Nat, PortIdle s → exec (.pumpWaitmsg n) s = .next (
      if 20 < n then failed s (.valueOutOfRange .kind) else waiting s (.pumpWaitmsg n) .waitMsg))
    ∧ ∀ k : Kind, InPhase s (.pumpWaitmsg k.number) .waitMsg →
      (∀ a e b, FirstIn (fun x => x.kind = k) s.pump.msgQ a e b →
        exec (.pumpWaitmsg k.number) s =
          .next (succeeded (msgTaken s a b) (.message { opcode := e.opcode, payload := e.payload })))
      ∧ ((∀ e ∈ s.pump.msgQ, e.kind ≠ k) → exec (.pumpWaitmsg k.number) s = .next s)

/-! ## Node operations -/

/-- `NODE.START`, steps S1 to S3 with their errors (43_node.md R251, R252): `TransportError` from isOpen, open and the two writes, with
what the step did before it kept. S3 goes on with C1 in the same step (assumption 9); failed calls too have a TRACE event
(assumption 22), and a failed `open` leaves `T.open` as it was (assumption 24).
A hold (20_memory.md R66) is a step that changes nothing (assumption 12). -/
def Obligations.NodeStartSteps : Prop :=
  ∀ (s : State) (n : Nat),
    let resetFrame : Bytes := [0xA4, 0x01, 0x4A, 0x00, 0xEF]
    let capsFrame : Bytes := [0xA4, 0x02, 0x4D, 0x00, 0x54, 0xBF]
    let up := { s with node := { s.node with state := .running } }
    (PortIdle s → s.node.state = .running → exec .nodeStart s = .next (failed s .alreadyStarted))
    ∧ (PortIdle s → s.node.state ≠ .running →
      (s.turn.answers.isOpen = .error → exec .nodeStart s = .next (failed s .transportError))
      ∧ (s.turn.answers.isOpen = .done → s.env.tOpen = true →
        (s.turn.answers.write = .wrote n → exec .nodeStart s = .next (waiting (sent s resetFrame n) .nodeStart .settle))
        ∧ (s.turn.answers.write = .error →
          exec .nodeStart s = .next (failed (notSent s resetFrame) .transportError)))
      ∧ (s.turn.answers.isOpen = .done → s.env.tOpen = false →
        (s.turn.answers.opening = .error → exec .nodeStart s = .next (failed (traced s .opening) .transportError))
        ∧ (s.turn.answers.opening = .done → s.turn.answers.write = .wrote n →
          exec .nodeStart s = .next (waiting (sent (transportOpened s) resetFrame n) .nodeStart .settle))
        ∧ (s.turn.answers.opening = .done → s.turn.answers.write = .error →
          exec .nodeStart s = .next (failed (notSent (transportOpened s) resetFrame) .transportError))))
    ∧ (InPhase s .nodeStart .settle →
        exec .nodeStart s = .next (inPhase
          (if s.pump.running = true then s else { s with pump := { s.pump with running := true, stopReq := false } })
          .waitPumpUp))
    ∧ (InPhase s .nodeStart .waitPumpUp →
      (s.pump.alive = false → exec .nodeStart s = .next s)
      ∧ (s.pump.alive = true → Writable s n → exec .nodeStart s = .next (inPhase (sent up capsFrame n) .waitMsg))
      ∧ (s.pump.alive = true → Unwritable s → exec .nodeStart s = .next (failed (notSent up capsFrame) .transportError)))

/-- `NODE.STOP`, steps T1 to T3 with their errors (43_node.md R253); `reset` left out means true, and false writes nothing. A failing
`close` leaves the node `Stopped` and the pump flags cleared; failed calls too have a TRACE event (assumption 22), and a failed `close`
leaves `T.open` as it was (assumption 24). A hold (20_memory.md R66) is a step that changes nothing (assumption 12). -/
def Obligations.NodeStopSteps : Prop :=
  ∀ (s : State) (r : Option Bool) (n : Nat),
    let resetFrame : Bytes := [0xA4, 0x01, 0x4A, 0x00, 0xEF]
    let stopped := fun (t : State) => { t with node := { t.node with state := .stopped } }
    (PortIdle s → s.node.state ≠ .running → exec (.nodeStop r) s = .next (failed s .notStarted))
    ∧ (PortIdle s → s.node.state = .running → r ≠ some false → Unwritable s →
        exec (.nodeStop r) s = .next (failed (notSent s resetFrame) .transportError))
    ∧ (PortIdle s → s.node.state = .running → (r = some false ∨ Writable s n) →
        let s' := if r = some false then s else sent s resetFrame n
        (s.pump.running = true →
          exec (.nodeStop r) s =
            .next (waiting { s' with pump := { s.pump with stopReq := true } } (.nodeStop r) .waitPumpDown))
        ∧ (s.pump.running = false → Closable s →
          exec (.nodeStop r) s = .next (succeeded (transportClosed (stopped s')) .nothing))
        ∧ (s.pump.running = false → Unclosable s →
          exec (.nodeStop r) s = .next (failed (traced (stopped s') .closing) .transportError)))
    ∧ (InPhase s (.nodeStop r) .waitPumpDown →
        let down := stopped { s with pump := { s.pump with running := false, stopReq := false } }
        (s.pump.alive = true → exec (.nodeStop r) s = .next s)
        ∧ (s.pump.alive = false → Closable s → exec (.nodeStop r) s = .next (succeeded (transportClosed down) .nothing))
        ∧ (s.pump.alive = false → Unclosable s →
          exec (.nodeStop r) s = .next (failed (traced down .closing) .transportError)))

/-- The negotiation, steps C1, C2, the pushes C3, K1, K2, C4, and C5 (43_node.md R255, R256), of `NODE.CAPS` and, after C1, of
`NODE.START`, with `TransportError` of the writes and the hold of both waits. That C3 is a step of its own after C4 is the model's
reading (assumption 10), the reply is kept for C5 in a field of the model's (assumption 8), a stamp past a table replaced in the
meantime writes nothing (assumption 16), and a failed write too has a TRACE event (assumption 22).
A hold (20_memory.md R66) is a step that changes nothing (assumption 12). -/
def Obligations.NegotiationSteps : Prop :=
  ∀ (s : State) (n : Nat),
    (PortIdle s → s.node.state ≠ .running → exec .nodeCaps s = .next (failed s .notStarted))
    ∧ (PortIdle s → s.node.state = .running → Writable s n →
        exec .nodeCaps s = .next (waiting (sent s [0xA4, 0x02, 0x4D, 0x00, 0x54, 0xBF] n) .nodeCaps .waitMsg))
    ∧ (PortIdle s → s.node.state = .running → Unwritable s →
        exec .nodeCaps s = .next (failed (notSent s [0xA4, 0x02, 0x4D, 0x00, 0x54, 0xBF]) .transportError))
    ∧ ∀ op ∈ ([.nodeStart, .nodeCaps] : List Instr),
      (InPhase s op .waitMsg → ∀ a e b, FirstIn (fun x => x.kind = .capabilities) s.pump.msgQ a e b →
        exec op s = .next { msgTaken s a b with
          node := { s.node with
            maxChannels := some (e.payload.getD 0 0)
            maxNetworks := some (e.payload.getD 1 0)
            nets := (List.range (e.payload.getD 1 0).toNat).map fun i =>
              { index := BitVec.ofNat 8 i, name := .placeholder i, key := List.replicate 8 0x00 } }
          seqs := s.seqs.modify s.turn.port fun q => { q with i := 0, phase := .negKeys, reply := e.payload } })
      ∧ (InPhase s op .waitMsg → (∀ e ∈ s.pump.msgQ, e.kind ≠ .capabilities) → exec op s = .next s)
      ∧ (InPhase s op .negKeys → ∀ (i : Nat) (m : Byte) (slot : NetSlot), CounterIs s i →
          s.node.maxNetworks = some m → i ≠ m.toNat → s.node.nets[i]? = some slot → Writable s n →
          exec op s = .next { sent s (encodeF 0x46 (BitVec.ofNat 8 i :: slot.key)) n with
            seqs := s.seqs.modify s.turn.port fun q =>
              { q with phase := .waitAck, req := some { opcode := 0x46, payload := BitVec.ofNat 8 i :: slot.key } } })
      ∧ (InPhase s op .negKeys → ∀ (i : Nat) (m : Byte), CounterIs s i → s.node.maxNetworks = some m → i ≠ m.toNat →
          (s.node.nets.length ≤ i → exec op s = .next (failed s (.valueOutOfRange .index)))
          ∧ ∀ slot, s.node.nets[i]? = some slot → Unwritable s →
            exec op s = .next (failed (notSent s (encodeF 0x46 (BitVec.ofNat 8 i :: slot.key))) .transportError))
      ∧ (InPhase s op .waitAck → ∀ i a e b, CounterIs s i → FirstIn (IsAckOf 0x46) s.pump.ackQ a e b →
          (e.payload.getD 2 0 = s.cfg.responseNoError →
            exec op s = .next { ackTaken s a b with
              node := { s.node with
                nets := s.node.nets.modify i fun k => { k with index := BitVec.ofNat 8 i } }
              seqs := s.seqs.modify s.turn.port fun q => { q with i := i + 1, phase := .negKeys } })
          ∧ (e.payload.getD 2 0 ≠ s.cfg.responseNoError →
            exec op s = .next (failed (ackTaken s a b) (.nodeError .setNetworkKey))))
      ∧ (InPhase s op .waitAck → (∀ e ∈ s.pump.ackQ, ¬ IsAckOf 0x46 e) → exec op s = .next s)
      ∧ (InPhase s op .negKeys → ∀ (m c : Byte) (q : Seq), s.seqs[s.turn.port]? = some q → q.i = m.toNat →
          s.node.maxNetworks = some m → s.node.maxChannels = some c →
          exec op s = .next (succeeded { s with
            node := { s.node with
              gen := s.node.gen + 1
              oldChans := s.node.oldChans ++ s.node.chans
              chans := (List.range c.toNat).map fun i =>
                { index := BitVec.ofNat 8 i, gen := s.node.gen + 1, state := .free, name := .text [], cbs := [] }
              stdOpts := some (q.reply.getD 2 0)
              advOpts := some (q.reply.getD 3 0)
              advOpts2 := some (q.reply.getD 4 0) }
            pump := { s.pump with
              reg := s.pump.reg ++ (List.range c.toNat).map (fun i => .channelL (s.node.gen + 1) i) } } .nothing))

/-- `NODE.SETKEY`, steps K1 and K2 (43_node.md R258): a replacement stays in the slot when the write fails. That a stamp past a table
replaced in the meantime writes nothing is assumption 16; a failed write too has a TRACE event (assumption 22).
A hold (20_memory.md R66) is a step that changes nothing (assumption 12). -/
def Obligations.SetKeySteps : Prop :=
  ∀ (s : State) (idx : Nat) (rep : Option (Bytes × Bytes)) (n : Nat),
    (PortIdle s → s.node.nets.length ≤ idx → exec (.nodeSetkey idx rep) s = .next (failed s (.valueOutOfRange .index)))
    ∧ (PortIdle s → ∀ name key, idx < s.node.nets.length → key.length ≠ 8 → rep = some (name, key) →
        exec (.nodeSetkey idx rep) s = .next (failed s (.lengthError (.field .key))))
    ∧ (PortIdle s → ∀ slot, s.node.nets[idx]? = some slot → Writable s n →
        (rep = none → exec (.nodeSetkey idx rep) s = .next (commanded s (.nodeSetkey idx rep)
          { opcode := 0x46, payload := BitVec.ofNat 8 idx :: slot.key } none n))
        ∧ ∀ name key, rep = some (name, key) → key.length = 8 →
          exec (.nodeSetkey idx rep) s = .next (commanded
            { s with node := { s.node with
                nets := s.node.nets.modify idx fun k => { k with name := .text name, key := key } } }
            (.nodeSetkey idx rep) { opcode := 0x46, payload := BitVec.ofNat 8 idx :: key } none n))
    ∧ (PortIdle s → ∀ slot, s.node.nets[idx]? = some slot → Unwritable s →
        (rep = none → exec (.nodeSetkey idx rep) s =
          .next (failed (notSent s (encodeF 0x46 (BitVec.ofNat 8 idx :: slot.key))) .transportError))
        ∧ ∀ name key, rep = some (name, key) → key.length = 8 →
          exec (.nodeSetkey idx rep) s = .next (failed (notSent
            { s with node := { s.node with
                nets := s.node.nets.modify idx fun k => { k with name := .text name, key := key } } }
            (encodeF 0x46 (BitVec.ofNat 8 idx :: key))) .transportError))
    ∧ (InPhase s (.nodeSetkey idx rep) .waitAck →
        (∀ a e b, FirstIn (IsAckOf 0x46) s.pump.ackQ a e b →
          (e.payload.getD 2 0 = s.cfg.responseNoError →
            exec (.nodeSetkey idx rep) s = .next (succeeded { ackTaken s a b with
              node := { s.node with
                nets := s.node.nets.modify idx fun k => { k with index := BitVec.ofNat 8 idx } } } .nothing))
          ∧ (e.payload.getD 2 0 ≠ s.cfg.responseNoError →
            exec (.nodeSetkey idx rep) s = .next (failed (ackTaken s a b) (.nodeError .setNetworkKey))))
        ∧ ((∀ e ∈ s.pump.ackQ, ¬ IsAckOf 0x46 e) → exec (.nodeSetkey idx rep) s = .next s))

/-- `NODE.FREECH` and `NODE.GETKEY`: the lowest matching index, or `NotFound`; nothing is written (43_node.md R260, R261). The info
`channel` of the first is the model's choice (assumption 19). -/
def Obligations.SlotLookups : Prop :=
  ∀ s : State, PortIdle s →
    (∀ j, (s.node.chans[j]?).map (fun c => c.state) = some .free →
        (∀ l < j, (s.node.chans[l]?).map (fun c => c.state) ≠ some .free) →
        exec .nodeFreech s = .next (succeeded s (.num j)))
    ∧ ((∀ c ∈ s.node.chans, c.state ≠ .free) → exec .nodeFreech s = .next (failed s (.notFound .channel)))
    ∧ ∀ name : Bytes,
      (∀ j, (s.node.nets[j]?).map (fun k => k.name) = some (.text name) →
        (∀ l < j, (s.node.nets[l]?).map (fun k => k.name) ≠ some (.text name)) →
        exec (.nodeGetkey name) s = .next (succeeded s (.num j)))
      ∧ ((∀ k ∈ s.node.nets, k.name ≠ .text name) →
        exec (.nodeGetkey name) s = .next (failed s (.notFound .network)))

/-! ## Channel operations -/

/-- Step H1 of the eight channel commands (44_channel.md R281 to R283): with every check passed the command is written, and the caller
waits for its ack. -/
def Obligations.ChannelCommandIsWritten : Prop :=
  ∀ (s : State) (i : Instr) (net n : Nat) (r : ChanRow), chanRow net i = some r → PortIdle s → NamedAt s net i →
    (s.node.chans[r.ch]?).map (fun c => c.state) = some r.required → r.InRange → Writable s n →
    exec i s = .next (commanded s i { opcode := r.opc, payload := r.payload } (some r.ch) n)

/-- The checks of step H1 in their order, with nothing written by a failing one (44_channel.md R282, 60_exceptions.md R324). That a
failed write too has a TRACE event is the model's reading of R345 (assumption 22). -/
def Obligations.ChannelChecksInOrder : Prop :=
  ∀ (s : State) (i : Instr) (net : Nat) (r : ChanRow), chanRow net i = some r → PortIdle s →
    (s.node.chans.length ≤ r.ch → exec i s = .next (failed s (.notFound .channel)))
    ∧ (r.ch < s.node.chans.length →
        (∀ pre e post, r.ranges = pre ++ e :: post → (∀ x ∈ pre, x.2.1 ≤ x.2.2) → e.2.2 < e.2.1 →
          exec i s = .next (failed s (.valueOutOfRange e.1)))
        ∧ (r.InRange →
          (∀ ch name ty, i = .chAssign ch name ty → (∀ k ∈ s.node.nets, k.name ≠ .text name) →
            exec i s = .next (failed s (.notFound .network)))
          ∧ (NamedAt s net i → (s.node.chans[r.ch]?).map (fun c => c.state) ≠ some r.required →
            exec i s = .next (failed s .stateError))
          ∧ (NamedAt s net i → (s.node.chans[r.ch]?).map (fun c => c.state) = some r.required → Unwritable s →
            exec i s = .next (failed (notSent s (encodeF r.opc r.payload)) .transportError))))

/-- Step H2 of the eight channel commands (44_channel.md R281, R301): a failing ack raises `ChannelError` and changes no slot; a
success ack writes the next state of the slot the sequencer names, where there is one, and the operation ends, but a close goes on to
its second phase; without an ack the step holds. A hold (20_memory.md R66) is a step that changes nothing (assumption 12). -/
def Obligations.ChannelAckIsTaken : Prop :=
  ∀ (s : State) (i : Instr) (net ch : Nat) (r : ChanRow), chanRow net i = some r → InPhase s i .waitAck →
    ChannelIs s ch →
    (∀ a e b, FirstIn (IsAckOf r.opc.toNat) s.pump.ackQ a e b →
      (e.payload.getD 2 0 ≠ s.cfg.responseNoError →
        exec i s = .next (failed (ackTaken s a b) (.channelError r.op)))
      ∧ (e.payload.getD 2 0 = s.cfg.responseNoError → (∀ c, i ≠ .chClose c) →
        exec i s = .next (succeeded
          (match r.next with
           | none => ackTaken s a b
           | some st => chanStateSet (ackTaken s a b) ch st) .nothing))
      ∧ (e.payload.getD 2 0 = s.cfg.responseNoError → ∀ c, i = .chClose c →
        exec i s = .next (inPhase (ackTaken s a b) .waitClosed)))
    ∧ ((∀ e ∈ s.pump.ackQ, ¬ IsAckOf r.opc.toNat e) → exec i s = .next s)

/-- The second phase of `CH.CLOSE` (44_channel.md R293): the most recent channel event is taken; a closed event of any channel ends
the close, any other is dropped; without an event the step holds.
A hold (20_memory.md R66) is a step that changes nothing (assumption 12). -/
def Obligations.CloseWaitsForTheClosedEvent : Prop :=
  ∀ (s : State) (c ch : Nat), InPhase s (.chClose c) .waitClosed → ChannelIs s ch →
    (∀ a e b, FirstIn (fun x => x.kind = .channelEvent) s.pump.msgQ a e b →
      exec (.chClose c) s = .next (
        if 3 ≤ e.payload.length ∧ e.payload.getD 2 0 = s.cfg.eventChannelClosed
        then succeeded (chanStateSet (msgTaken s a b) ch .assigned) .nothing
        else msgTaken s a b))
    ∧ ((∀ e ∈ s.pump.msgQ, e.kind ≠ .channelEvent) → exec (.chClose c) s = .next s)

/-- `CH.REG` and `CH.UNREG` (44_channel.md R299, R300). -/
def Obligations.CallbackRegistration : Prop :=
  ∀ (s : State) (ch cb : Nat), PortIdle s →
    (s.node.chans.length ≤ ch →
      exec (.chReg ch cb) s = .next (failed s (.notFound .channel))
      ∧ exec (.chUnreg ch cb) s = .next (failed s (.notFound .channel)))
    ∧ (ch < s.node.chans.length →
      exec (.chReg ch cb) s = .next (succeeded { s with
        node := { s.node with
          chans := s.node.chans.modify ch fun c =>
            { c with cbs := if cb ∈ c.cbs then c.cbs else c.cbs ++ [cb] } } } .nothing)
      ∧ exec (.chUnreg ch cb) s = .next (succeeded { s with
        node := { s.node with
          chans := s.node.chans.modify ch fun c => { c with cbs := c.cbs.filter (fun x => x ≠ cb) } } } .nothing))

/-! ## Responses -/

/-- 60_exceptions.md R320: the codes are 0x00 for OK and 0x01 to 0x0F for the errors in the order of the table, whatever their info. -/
def Obligations.ResponseCodes : Prop :=
  (∀ r : Result, (Response.ok r).code = 0x00)
    ∧ (∀ (skip : Nat) (opc : Byte) (big long : OperandName) (f : FieldName) (ch : ChannelOp) (no : NodeOp) (what : Missing),
      ([.malformedIncomplete, .malformedBadSync, .malformedPayloadTooLong, .checksumMismatch skip, .unknownMessageType opc,
        .valueOutOfRange big, .lengthError long, .fieldOutOfBounds f, .channelError ch, .nodeError no, .alreadyStarted,
        .notStarted, .notFound what, .stateError, .transportError] : List Err).map (fun e => (Response.error e).code)
      = [0x01, 0x02, 0x03, 0x04, 0x05, 0x06, 0x07, 0x08, 0x09, 0x0A, 0x0B, 0x0C, 0x0D, 0x0E, 0x0F])
    ∧ ([.assign, .setID, .setSearchTimeout, .setPeriod, .setFrequency, .opening, .closing, .unassign]
        : List ChannelOp).map ChannelOp.number = [0, 1, 2, 3, 4, 5, 6, 7]
    ∧ NodeOp.setNetworkKey.number = 0
end

