-- ==== Sys2Proof/Laws/State.lean ====
section
/-! SUPPORT. One lemma per field per update of the state, so that no later proof unfolds a record update. -/

namespace Sys2Proof.Machine

/-! ## Updates of the state's parts -/

@[simp] theorem State.withMr_cfg (s : State) (m : MR) : (s.withMr m).cfg = s.cfg := rfl
@[simp] theorem State.withMr_mr (s : State) (m : MR) : (s.withMr m).mr = m := rfl
@[simp] theorem State.withMr_pump (s : State) (m : MR) : (s.withMr m).pump = s.pump := rfl
@[simp] theorem State.withMr_node (s : State) (m : MR) : (s.withMr m).node = s.node := rfl
@[simp] theorem State.withMr_seqs (s : State) (m : MR) : (s.withMr m).seqs = s.seqs := rfl
@[simp] theorem State.withMr_env (s : State) (m : MR) : (s.withMr m).env = s.env := rfl
@[simp] theorem State.withMr_turn (s : State) (m : MR) : (s.withMr m).turn = s.turn := rfl
@[simp] theorem State.withMr_inputs (s : State) (m : MR) : (s.withMr m).inputs = s.inputs := rfl

@[simp] theorem State.withPump_cfg (s : State) (p : Pump) : (s.withPump p).cfg = s.cfg := rfl
@[simp] theorem State.withPump_mr (s : State) (p : Pump) : (s.withPump p).mr = s.mr := rfl
@[simp] theorem State.withPump_pump (s : State) (p : Pump) : (s.withPump p).pump = p := rfl
@[simp] theorem State.withPump_node (s : State) (p : Pump) : (s.withPump p).node = s.node := rfl
@[simp] theorem State.withPump_seqs (s : State) (p : Pump) : (s.withPump p).seqs = s.seqs := rfl
@[simp] theorem State.withPump_env (s : State) (p : Pump) : (s.withPump p).env = s.env := rfl
@[simp] theorem State.withPump_turn (s : State) (p : Pump) : (s.withPump p).turn = s.turn := rfl
@[simp] theorem State.withPump_inputs (s : State) (p : Pump) : (s.withPump p).inputs = s.inputs := rfl

@[simp] theorem State.withNode_cfg (s : State) (n : Node) : (s.withNode n).cfg = s.cfg := rfl
@[simp] theorem State.withNode_mr (s : State) (n : Node) : (s.withNode n).mr = s.mr := rfl
@[simp] theorem State.withNode_pump (s : State) (n : Node) : (s.withNode n).pump = s.pump := rfl
@[simp] theorem State.withNode_node (s : State) (n : Node) : (s.withNode n).node = n := rfl
@[simp] theorem State.withNode_seqs (s : State) (n : Node) : (s.withNode n).seqs = s.seqs := rfl
@[simp] theorem State.withNode_env (s : State) (n : Node) : (s.withNode n).env = s.env := rfl
@[simp] theorem State.withNode_turn (s : State) (n : Node) : (s.withNode n).turn = s.turn := rfl
@[simp] theorem State.withNode_inputs (s : State) (n : Node) : (s.withNode n).inputs = s.inputs := rfl

@[simp] theorem State.withSeqs_cfg (s : State) (q : List Seq) : (s.withSeqs q).cfg = s.cfg := rfl
@[simp] theorem State.withSeqs_mr (s : State) (q : List Seq) : (s.withSeqs q).mr = s.mr := rfl
@[simp] theorem State.withSeqs_pump (s : State) (q : List Seq) : (s.withSeqs q).pump = s.pump := rfl
@[simp] theorem State.withSeqs_node (s : State) (q : List Seq) : (s.withSeqs q).node = s.node := rfl
@[simp] theorem State.withSeqs_seqs (s : State) (q : List Seq) : (s.withSeqs q).seqs = q := rfl
@[simp] theorem State.withSeqs_env (s : State) (q : List Seq) : (s.withSeqs q).env = s.env := rfl
@[simp] theorem State.withSeqs_turn (s : State) (q : List Seq) : (s.withSeqs q).turn = s.turn := rfl
@[simp] theorem State.withSeqs_inputs (s : State) (q : List Seq) : (s.withSeqs q).inputs = s.inputs := rfl

@[simp] theorem State.withEnv_cfg (s : State) (e : Env) : (s.withEnv e).cfg = s.cfg := rfl
@[simp] theorem State.withEnv_mr (s : State) (e : Env) : (s.withEnv e).mr = s.mr := rfl
@[simp] theorem State.withEnv_pump (s : State) (e : Env) : (s.withEnv e).pump = s.pump := rfl
@[simp] theorem State.withEnv_node (s : State) (e : Env) : (s.withEnv e).node = s.node := rfl
@[simp] theorem State.withEnv_seqs (s : State) (e : Env) : (s.withEnv e).seqs = s.seqs := rfl
@[simp] theorem State.withEnv_env (s : State) (e : Env) : (s.withEnv e).env = e := rfl
@[simp] theorem State.withEnv_turn (s : State) (e : Env) : (s.withEnv e).turn = s.turn := rfl
@[simp] theorem State.withEnv_inputs (s : State) (e : Env) : (s.withEnv e).inputs = s.inputs := rfl

@[simp] theorem State.withTurn_cfg (s : State) (t : Turn) : (s.withTurn t).cfg = s.cfg := rfl
@[simp] theorem State.withTurn_mr (s : State) (t : Turn) : (s.withTurn t).mr = s.mr := rfl
@[simp] theorem State.withTurn_pump (s : State) (t : Turn) : (s.withTurn t).pump = s.pump := rfl
@[simp] theorem State.withTurn_node (s : State) (t : Turn) : (s.withTurn t).node = s.node := rfl
@[simp] theorem State.withTurn_seqs (s : State) (t : Turn) : (s.withTurn t).seqs = s.seqs := rfl
@[simp] theorem State.withTurn_env (s : State) (t : Turn) : (s.withTurn t).env = s.env := rfl
@[simp] theorem State.withTurn_turn (s : State) (t : Turn) : (s.withTurn t).turn = t := rfl
@[simp] theorem State.withTurn_inputs (s : State) (t : Turn) : (s.withTurn t).inputs = s.inputs := rfl

@[simp] theorem State.withInputs_cfg (s : State) (es : List Event) : (s.withInputs es).cfg = s.cfg := rfl
@[simp] theorem State.withInputs_mr (s : State) (es : List Event) : (s.withInputs es).mr = s.mr := rfl
@[simp] theorem State.withInputs_pump (s : State) (es : List Event) : (s.withInputs es).pump = s.pump := rfl
@[simp] theorem State.withInputs_node (s : State) (es : List Event) : (s.withInputs es).node = s.node := rfl
@[simp] theorem State.withInputs_seqs (s : State) (es : List Event) : (s.withInputs es).seqs = s.seqs := rfl
@[simp] theorem State.withInputs_env (s : State) (es : List Event) : (s.withInputs es).env = s.env := rfl
@[simp] theorem State.withInputs_turn (s : State) (es : List Event) : (s.withInputs es).turn = s.turn := rfl
@[simp] theorem State.withInputs_inputs (s : State) (es : List Event) : (s.withInputs es).inputs = es := rfl

@[simp] theorem State.withMr_self (s : State) : s.withMr s.mr = s := rfl
@[simp] theorem State.withMr_withMr (s : State) (m m' : MR) : (s.withMr m).withMr m' = s.withMr m' := rfl
@[simp] theorem State.withPump_self (s : State) : s.withPump s.pump = s := rfl
@[simp] theorem State.withPump_withPump (s : State) (p p' : Pump) : (s.withPump p).withPump p' = s.withPump p' := rfl
@[simp] theorem State.withNode_self (s : State) : s.withNode s.node = s := rfl
@[simp] theorem State.withNode_withNode (s : State) (n n' : Node) : (s.withNode n).withNode n' = s.withNode n' := rfl
@[simp] theorem State.withSeqs_self (s : State) : s.withSeqs s.seqs = s := rfl
@[simp] theorem State.withSeqs_withSeqs (s : State) (q q' : List Seq) : (s.withSeqs q).withSeqs q' = s.withSeqs q' := rfl
@[simp] theorem State.withEnv_self (s : State) : s.withEnv s.env = s := rfl
@[simp] theorem State.withEnv_withEnv (s : State) (e e' : Env) : (s.withEnv e).withEnv e' = s.withEnv e' := rfl
@[simp] theorem State.withTurn_self (s : State) : s.withTurn s.turn = s := rfl
@[simp] theorem State.withTurn_withTurn (s : State) (t t' : Turn) : (s.withTurn t).withTurn t' = s.withTurn t' := rfl
@[simp] theorem State.withInputs_self (s : State) : s.withInputs s.inputs = s := rfl
@[simp] theorem State.withInputs_withInputs (s : State) (es es' : List Event) : (s.withInputs es).withInputs es' = s.withInputs es' := rfl

/-! ## The sequencer in turn -/

@[simp] theorem State.modifySeq_cfg (s : State) (g : Seq → Seq) : (s.modifySeq g).cfg = s.cfg := rfl
@[simp] theorem State.modifySeq_mr (s : State) (g : Seq → Seq) : (s.modifySeq g).mr = s.mr := rfl
@[simp] theorem State.modifySeq_pump (s : State) (g : Seq → Seq) : (s.modifySeq g).pump = s.pump := rfl
@[simp] theorem State.modifySeq_node (s : State) (g : Seq → Seq) : (s.modifySeq g).node = s.node := rfl
@[simp] theorem State.modifySeq_env (s : State) (g : Seq → Seq) : (s.modifySeq g).env = s.env := rfl
@[simp] theorem State.modifySeq_turn (s : State) (g : Seq → Seq) : (s.modifySeq g).turn = s.turn := rfl
@[simp] theorem State.modifySeq_inputs (s : State) (g : Seq → Seq) : (s.modifySeq g).inputs = s.inputs := rfl
@[simp] theorem State.setPhase_cfg (s : State) (g : Phase) : (s.setPhase g).cfg = s.cfg := rfl
@[simp] theorem State.setPhase_mr (s : State) (g : Phase) : (s.setPhase g).mr = s.mr := rfl
@[simp] theorem State.setPhase_pump (s : State) (g : Phase) : (s.setPhase g).pump = s.pump := rfl
@[simp] theorem State.setPhase_node (s : State) (g : Phase) : (s.setPhase g).node = s.node := rfl
@[simp] theorem State.setPhase_env (s : State) (g : Phase) : (s.setPhase g).env = s.env := rfl
@[simp] theorem State.setPhase_turn (s : State) (g : Phase) : (s.setPhase g).turn = s.turn := rfl
@[simp] theorem State.setPhase_inputs (s : State) (g : Phase) : (s.setPhase g).inputs = s.inputs := rfl
@[simp] theorem State.beginOp_cfg (s : State) (g : Instr) : (s.beginOp g).cfg = s.cfg := rfl
@[simp] theorem State.beginOp_mr (s : State) (g : Instr) : (s.beginOp g).mr = s.mr := rfl
@[simp] theorem State.beginOp_pump (s : State) (g : Instr) : (s.beginOp g).pump = s.pump := rfl
@[simp] theorem State.beginOp_node (s : State) (g : Instr) : (s.beginOp g).node = s.node := rfl
@[simp] theorem State.beginOp_env (s : State) (g : Instr) : (s.beginOp g).env = s.env := rfl
@[simp] theorem State.beginOp_turn (s : State) (g : Instr) : (s.beginOp g).turn = s.turn := rfl
@[simp] theorem State.beginOp_inputs (s : State) (g : Instr) : (s.beginOp g).inputs = s.inputs := rfl
@[simp] theorem State.setReq_cfg (s : State) (g : Message) : (s.setReq g).cfg = s.cfg := rfl
@[simp] theorem State.setReq_mr (s : State) (g : Message) : (s.setReq g).mr = s.mr := rfl
@[simp] theorem State.setReq_pump (s : State) (g : Message) : (s.setReq g).pump = s.pump := rfl
@[simp] theorem State.setReq_node (s : State) (g : Message) : (s.setReq g).node = s.node := rfl
@[simp] theorem State.setReq_env (s : State) (g : Message) : (s.setReq g).env = s.env := rfl
@[simp] theorem State.setReq_turn (s : State) (g : Message) : (s.setReq g).turn = s.turn := rfl
@[simp] theorem State.setReq_inputs (s : State) (g : Message) : (s.setReq g).inputs = s.inputs := rfl
@[simp] theorem State.setCh_cfg (s : State) (g : Nat) : (s.setCh g).cfg = s.cfg := rfl
@[simp] theorem State.setCh_mr (s : State) (g : Nat) : (s.setCh g).mr = s.mr := rfl
@[simp] theorem State.setCh_pump (s : State) (g : Nat) : (s.setCh g).pump = s.pump := rfl
@[simp] theorem State.setCh_node (s : State) (g : Nat) : (s.setCh g).node = s.node := rfl
@[simp] theorem State.setCh_env (s : State) (g : Nat) : (s.setCh g).env = s.env := rfl
@[simp] theorem State.setCh_turn (s : State) (g : Nat) : (s.setCh g).turn = s.turn := rfl
@[simp] theorem State.setCh_inputs (s : State) (g : Nat) : (s.setCh g).inputs = s.inputs := rfl
@[simp] theorem State.faultCaller_cfg (s : State) (g : Fault) : (s.faultCaller g).cfg = s.cfg := rfl
@[simp] theorem State.faultCaller_mr (s : State) (g : Fault) : (s.faultCaller g).mr = s.mr := rfl
@[simp] theorem State.faultCaller_pump (s : State) (g : Fault) : (s.faultCaller g).pump = s.pump := rfl
@[simp] theorem State.faultCaller_node (s : State) (g : Fault) : (s.faultCaller g).node = s.node := rfl
@[simp] theorem State.faultCaller_env (s : State) (g : Fault) : (s.faultCaller g).env = s.env := rfl
@[simp] theorem State.faultCaller_turn (s : State) (g : Fault) : (s.faultCaller g).turn = s.turn := rfl
@[simp] theorem State.faultCaller_inputs (s : State) (g : Fault) : (s.faultCaller g).inputs = s.inputs := rfl

@[simp] theorem State.modifySeq_seqs (s : State) (g : Seq → Seq) :
    (s.modifySeq g).seqs = s.seqs.modify s.turn.port g := rfl
theorem State.setPhase_eq (s : State) (p : Phase) : s.setPhase p = s.modifySeq fun q => { q with phase := p } := rfl
theorem State.beginOp_eq (s : State) (i : Instr) : s.beginOp i = s.modifySeq fun q => { q with op := some i } := rfl
theorem State.setReq_eq (s : State) (m : Message) : s.setReq m = s.modifySeq fun q => { q with req := some m } := rfl
theorem State.setCh_eq (s : State) (c : Nat) : s.setCh c = s.modifySeq fun q => { q with ch := some c } := rfl
theorem State.faultCaller_eq (s : State) (f : Fault) :
    s.faultCaller f = s.modifySeq fun q => { q with phase := .faulted f } := rfl

/-- Two changes of the sequencer in turn are one. -/
theorem State.modifySeq_modifySeq (s : State) (f g : Seq → Seq) :
    (s.modifySeq f).modifySeq g = s.modifySeq (g ∘ f) := by
  simp only [State.modifySeq, State.withSeqs, List.modify_modify_eq]

/-! ## Responses -/

@[simp] theorem State.respond_cfg (s : State) (r : Response) : (s.respond r).cfg = s.cfg := rfl
@[simp] theorem State.respond_mr (s : State) (r : Response) : (s.respond r).mr = s.mr := rfl
@[simp] theorem State.respond_pump (s : State) (r : Response) : (s.respond r).pump = s.pump := rfl
@[simp] theorem State.respond_node (s : State) (r : Response) : (s.respond r).node = s.node := rfl
@[simp] theorem State.respond_turn (s : State) (r : Response) : (s.respond r).turn = s.turn := rfl
@[simp] theorem State.respond_inputs (s : State) (r : Response) : (s.respond r).inputs = s.inputs := rfl
@[simp] theorem State.respond_env (s : State) (r : Response) :
    (s.respond r).env = { s.env with responses := s.env.responses ++ [(s.turn.port, r)] } := rfl
@[simp] theorem State.respond_seqs (s : State) (r : Response) :
    (s.respond r).seqs = s.seqs.modify s.turn.port Seq.toIdle := rfl
@[simp] theorem State.ok_cfg (s : State) (r : Result) : (s.ok r).cfg = s.cfg := rfl
@[simp] theorem State.ok_mr (s : State) (r : Result) : (s.ok r).mr = s.mr := rfl
@[simp] theorem State.ok_pump (s : State) (r : Result) : (s.ok r).pump = s.pump := rfl
@[simp] theorem State.ok_node (s : State) (r : Result) : (s.ok r).node = s.node := rfl
@[simp] theorem State.ok_turn (s : State) (r : Result) : (s.ok r).turn = s.turn := rfl
@[simp] theorem State.ok_inputs (s : State) (r : Result) : (s.ok r).inputs = s.inputs := rfl
@[simp] theorem State.ok_env (s : State) (r : Result) :
    (s.ok r).env = { s.env with responses := s.env.responses ++ [(s.turn.port, .ok r)] } := rfl
@[simp] theorem State.ok_seqs (s : State) (r : Result) :
    (s.ok r).seqs = s.seqs.modify s.turn.port Seq.toIdle := rfl
@[simp] theorem State.raise_cfg (s : State) (e : Err) : (s.raise e).cfg = s.cfg := rfl
@[simp] theorem State.raise_mr (s : State) (e : Err) : (s.raise e).mr = s.mr := rfl
@[simp] theorem State.raise_pump (s : State) (e : Err) : (s.raise e).pump = s.pump := rfl
@[simp] theorem State.raise_node (s : State) (e : Err) : (s.raise e).node = s.node := rfl
@[simp] theorem State.raise_turn (s : State) (e : Err) : (s.raise e).turn = s.turn := rfl
@[simp] theorem State.raise_inputs (s : State) (e : Err) : (s.raise e).inputs = s.inputs := rfl
@[simp] theorem State.raise_env (s : State) (e : Err) :
    (s.raise e).env = { s.env with responses := s.env.responses ++ [(s.turn.port, .error e)] } := rfl
@[simp] theorem State.raise_seqs (s : State) (e : Err) :
    (s.raise e).seqs = s.seqs.modify s.turn.port Seq.toIdle := rfl

@[simp] theorem Seq.toIdle_phase (q : Seq) : q.toIdle.phase = .idle := rfl
@[simp] theorem Seq.toIdle_op (q : Seq) : q.toIdle.op = none := rfl
@[simp] theorem Seq.toIdle_req (q : Seq) : q.toIdle.req = none := rfl
@[simp] theorem Seq.toIdle_ch (q : Seq) : q.toIdle.ch = none := rfl
@[simp] theorem Seq.toIdle_i (q : Seq) : q.toIdle.i = q.i := rfl
@[simp] theorem Seq.toIdle_reply (q : Seq) : q.toIdle.reply = [] := rfl

/-! ## TRACE -/

@[simp] theorem State.traceEvent_cfg (s : State) (ev : TraceEvent) : (s.traceEvent ev).cfg = s.cfg := by
  unfold State.traceEvent; split <;> rfl
@[simp] theorem State.traceEvent_mr (s : State) (ev : TraceEvent) : (s.traceEvent ev).mr = s.mr := by
  unfold State.traceEvent; split <;> rfl
@[simp] theorem State.traceEvent_pump (s : State) (ev : TraceEvent) : (s.traceEvent ev).pump = s.pump := by
  unfold State.traceEvent; split <;> rfl
@[simp] theorem State.traceEvent_node (s : State) (ev : TraceEvent) : (s.traceEvent ev).node = s.node := by
  unfold State.traceEvent; split <;> rfl
@[simp] theorem State.traceEvent_seqs (s : State) (ev : TraceEvent) : (s.traceEvent ev).seqs = s.seqs := by
  unfold State.traceEvent; split <;> rfl
@[simp] theorem State.traceEvent_turn (s : State) (ev : TraceEvent) : (s.traceEvent ev).turn = s.turn := by
  unfold State.traceEvent; split <;> rfl
@[simp] theorem State.traceEvent_inputs (s : State) (ev : TraceEvent) : (s.traceEvent ev).inputs = s.inputs := by
  unfold State.traceEvent; split <;> rfl
@[simp] theorem State.traceEvent_env_tOpen (s : State) (ev : TraceEvent) : (s.traceEvent ev).env.tOpen = s.env.tOpen := by
  unfold State.traceEvent; split <;> rfl
@[simp] theorem State.traceEvent_env_tx (s : State) (ev : TraceEvent) : (s.traceEvent ev).env.tx = s.env.tx := by
  unfold State.traceEvent; split <;> rfl
@[simp] theorem State.traceEvent_env_responses (s : State) (ev : TraceEvent) : (s.traceEvent ev).env.responses = s.env.responses := by
  unfold State.traceEvent; split <;> rfl
@[simp] theorem State.traceEvent_env_lsn (s : State) (ev : TraceEvent) : (s.traceEvent ev).env.lsn = s.env.lsn := by
  unfold State.traceEvent; split <;> rfl

/-! ## Block reset -/

@[simp] theorem State.blockReset_cfg (s : State) : s.blockReset.cfg = s.cfg := rfl
@[simp] theorem State.blockReset_mr (s : State) : s.blockReset.mr = .reset := rfl
@[simp] theorem State.blockReset_pump (s : State) : s.blockReset.pump = .reset := rfl
@[simp] theorem State.blockReset_node (s : State) : s.blockReset.node = .reset := rfl
@[simp] theorem State.blockReset_seqs (s : State) : s.blockReset.seqs = List.replicate s.cfg.numCallers .reset := rfl
@[simp] theorem State.blockReset_env (s : State) : s.blockReset.env = s.env := rfl
@[simp] theorem State.blockReset_turn (s : State) : s.blockReset.turn = s.turn := rfl
@[simp] theorem State.blockReset_inputs (s : State) : s.blockReset.inputs = s.inputs := rfl

end Sys2Proof.Machine
end

