-- ==== Sys2Proof/Laws/Ops.lean ====
section
/-! SUPPORT. One lemma per shared operation that says once everything it can do. -/

namespace Sys2Proof.Machine

/-! ## The port -/

/-- A port has three things to do: nothing, issue an admitted request, or resume the operation in progress. -/
theorem onPort_cases {i : Instr} {ok : Bool} {issue : State → State} {resume : Phase → State → State} {s t : State}
    (h : onPort i ok issue resume s = .next t) :
    t = s
      ∨ (∃ q, s.seqs[s.turn.port]? = some q ∧ q.phase = .idle ∧ ok = true ∧ t = issue (s.beginOp i))
      ∨ ∃ q, s.seqs[s.turn.port]? = some q ∧ q.phase ≠ .idle ∧ q.op = some i ∧ t = resume q.phase s := by
  unfold onPort at h
  cases hq : s.seqs[s.turn.port]? with
  | none => simp [hq] at h; exact .inl h.symm
  | some q =>
    simp only [hq] at h
    split at h
    · split at h
      · cases h; exact .inr (.inl ⟨q, rfl, ‹_›, ‹_›, rfl⟩)
      · cases h; exact .inl rfl
    · split at h
      · cases h; exact .inr (.inr ⟨q, rfl, ‹_›, ‹_›, rfl⟩)
      · cases h; exact .inl rfl

/-- A port always answers a next state. -/
theorem onPort_next (i : Instr) (ok : Bool) (issue : State → State) (resume : Phase → State → State) (s : State) :
    ∃ t, onPort i ok issue resume s = .next t := by
  unfold onPort
  split
  · exact ⟨_, rfl⟩
  · split <;> split <;> exact ⟨_, rfl⟩

/-- An accepted request on an `Idle` port is issued. -/
theorem onPort_issue {s : State} (h : (s.seqs[s.turn.port]?).map (fun q => q.phase) = some .idle) (i : Instr)
    (issue : State → State) (resume : Phase → State → State) :
    onPort i true issue resume s = .next (issue (s.beginOp i)) := by
  unfold onPort
  cases hq : s.seqs[s.turn.port]? with
  | none => simp [hq] at h
  | some q => simp [hq] at h; simp [h]

/-- A request that is not accepted changes nothing on an `Idle` port. -/
theorem onPort_refuse {s : State} (h : (s.seqs[s.turn.port]?).map (fun q => q.phase) = some .idle) (i : Instr)
    (issue : State → State) (resume : Phase → State → State) :
    onPort i false issue resume s = .next s := by
  unfold onPort
  cases hq : s.seqs[s.turn.port]? with
  | none => simp [hq] at h
  | some q => simp [hq] at h; simp [h]

/-- The operation in progress is resumed in its phase. -/
theorem onPort_resume {s : State} {i : Instr} {p : Phase}
    (h : (s.seqs[s.turn.port]?).map (fun q => (q.op, q.phase)) = some (some i, p)) (hp : p ≠ .idle) (ok : Bool)
    (issue : State → State) (resume : Phase → State → State) :
    onPort i ok issue resume s = .next (resume p s) := by
  unfold onPort
  cases hq : s.seqs[s.turn.port]? with
  | none => simp [hq] at h
  | some q => simp [hq] at h; obtain ⟨h1, rfl⟩ := h; simp [h1, hp]

/-- The sequencer in turn, where the port exists. -/
theorem State.seq_of_getElem? {s : State} {q : Seq} (h : s.seqs[s.turn.port]? = some q) : s.seq = q := by
  simp [State.seq, List.getD, h]

/-! ## Queues -/

/-- What a take answers: the first match, with the queue without it, or none where nothing matches. -/
theorem qTake_cases (P : Entry → Bool) (q : List Entry) :
    (qTake P q = none ∧ ∀ x ∈ q, P x = false)
      ∨ ∃ a e b, q = a ++ e :: b ∧ (∀ x ∈ a, P x = false) ∧ P e = true ∧ qTake P q = some (e, a ++ b) := by
  induction q with
  | nil => exact .inl ⟨rfl, by simp⟩
  | cons x q ih =>
    by_cases hx : P x = true
    · exact .inr ⟨[], x, q, rfl, by simp, hx, by simp [qTake, hx]⟩
    · rcases ih with ⟨h, hn⟩ | ⟨a, e, b, rfl, ha, he, h⟩
      · exact .inl ⟨by simp [qTake, hx, h], by simpa [hx] using hn⟩
      · exact .inr ⟨x :: a, e, b, rfl, by simpa [hx] using ha, he, by simp [qTake, hx, h]⟩

/-- An insertion holds at most `queueCap` entries. -/
theorem qInsert_length (q : List Entry) (m : Entry) : (qInsert q m).length ≤ queueCap := by
  simp [qInsert]

/-- An insertion holds the new entry and entries of the queue, nothing else. -/
theorem mem_qInsert {q : List Entry} {m e : Entry} (h : e ∈ qInsert q m) : e = m ∨ e ∈ q := by
  simpa using List.mem_of_mem_take h

/-- The ack wait holds where no entry matches, else goes on with the most recent match out of the queue. -/
theorem takeAck_cases (opc : Nat) (go : Entry → State → State) (s : State) :
    (takeAck opc go s = s ∧ ∀ x ∈ s.pump.ackQ, ackMatch opc x = false)
      ∨ ∃ a e b, s.pump.ackQ = a ++ e :: b ∧ (∀ x ∈ a, ackMatch opc x = false) ∧ ackMatch opc e = true
        ∧ takeAck opc go s = go e (s.withPump { s.pump with ackQ := a ++ b }) := by
  rcases qTake_cases (ackMatch opc) s.pump.ackQ with ⟨h, hn⟩ | ⟨a, e, b, hq, ha, he, h⟩
  · exact .inl ⟨by simp [takeAck, h], hn⟩
  · exact .inr ⟨a, e, b, hq, ha, he, by simp [takeAck, h]⟩

/-- The message wait holds where no entry has the kind, else goes on with the most recent one out of the queue. -/
theorem takeMsg_cases (k : Kind) (go : Entry → State → State) (s : State) :
    (takeMsg k go s = s ∧ ∀ x ∈ s.pump.msgQ, x.kind ≠ k)
      ∨ ∃ a e b, s.pump.msgQ = a ++ e :: b ∧ (∀ x ∈ a, x.kind ≠ k) ∧ e.kind = k
        ∧ takeMsg k go s = go e (s.withPump { s.pump with msgQ := a ++ b }) := by
  rcases qTake_cases (fun e => decide (e.kind = k)) s.pump.msgQ with ⟨h, hn⟩ | ⟨a, e, b, hq, ha, he, h⟩
  · exact .inl ⟨by simp [takeMsg, h], by simpa using hn⟩
  · exact .inr ⟨a, e, b, hq, by simpa using ha, by simpa using he, by simp [takeMsg, h]⟩

/-! ## The transport's calls -/

/-- The TRACE log after an event: longer by it where a logger is attached. -/
def Env.traced (e : Env) (logger : Bool) (ev : TraceEvent) : Env :=
  { e with trace := if logger then e.trace ++ [ev] else e.trace }

/-- A TRACE event writes the TRACE log only. -/
theorem State.traceEvent_eq (s : State) (ev : TraceEvent) :
    s.traceEvent ev = s.withEnv (s.env.traced s.cfg.logger ev) := by
  unfold State.traceEvent Env.traced
  cases s.cfg.logger <;> rfl

/-- A write that succeeds: the transport is open, the string is not empty, and TX has carried it. -/
theorem txWrite_done {s : State} {bs : Bytes} {n : Nat} (ho : s.env.tOpen = true) (hb : bs ≠ [])
    (hw : s.turn.answers.write = .wrote n) :
    s.txWrite bs = (.done, s.withEnv { s.env.traced s.cfg.logger (.write bs (.wrote n)) with tx := s.env.tx ++ [bs] }) := by
  simp [State.txWrite, State.writeResult, ho, hb, hw, State.traceEvent_eq, Env.traced]

/-- A write that fails hands TX nothing. -/
theorem txWrite_error {s : State} {bs : Bytes} (h : s.env.tOpen = false ∨ s.turn.answers.write = .error) :
    s.txWrite bs = (.error, s.withEnv (s.env.traced s.cfg.logger (.write bs .error))) := by
  have : s.writeResult bs = .error := by
    rcases h with h | h <;> simp [State.writeResult, h]
  simp [State.txWrite, this, State.traceEvent_eq]

/-- The encoder never answers the empty string. -/
theorem encodeF_ne_nil (opc : Byte) (pay : Bytes) : encodeF opc pay ≠ [] := by simp [encodeF]

/-- Sending a frame goes on with TX longer by the frame, or raises `TransportError` with TX as it was. -/
theorem sendFrame_cases (opc : Byte) (pay : Bytes) (go : State → State) (s : State) :
    (∃ n, s.env.tOpen = true ∧ s.turn.answers.write = .wrote n
        ∧ sendFrame opc pay go s = go (s.withEnv
          { s.env.traced s.cfg.logger (.write (encodeF opc pay) (.wrote n)) with tx := s.env.tx ++ [encodeF opc pay] }))
      ∨ (s.env.tOpen = false ∨ s.turn.answers.write = .error)
        ∧ sendFrame opc pay go s
          = (s.withEnv (s.env.traced s.cfg.logger (.write (encodeF opc pay) .error))).raise .transportError := by
  cases hw : s.turn.answers.write with
  | error => exact .inr ⟨.inr rfl, by simp [sendFrame, txWrite_error (.inr hw)]⟩
  | wrote n =>
    cases ho : s.env.tOpen with
    | false => exact .inr ⟨.inl rfl, by simp [sendFrame, txWrite_error (.inl ho)]⟩
    | true => exact .inl ⟨n, rfl, rfl, by simp [sendFrame, txWrite_done ho (encodeF_ne_nil _ _) hw]⟩

/-- `open()` succeeds on a closed transport that agrees, and fails in every other case with the flag as it was. -/
theorem transportOpen_cases (s : State) :
    (s.env.tOpen = false ∧ s.turn.answers.opening = .done
        ∧ s.transportOpen = (.done, s.withEnv { s.env.traced s.cfg.logger .opening with tOpen := true }))
      ∨ (s.env.tOpen = true ∨ s.turn.answers.opening = .error)
        ∧ s.transportOpen = (.error, s.withEnv (s.env.traced s.cfg.logger .opening)) := by
  cases ho : s.env.tOpen <;> cases ha : s.turn.answers.opening <;>
    simp [State.transportOpen, ho, ha, State.traceEvent_eq]

/-- `close()` succeeds on an open transport that agrees, and fails in every other case with the flag as it was. -/
theorem transportClose_cases (s : State) :
    (s.env.tOpen = true ∧ s.turn.answers.closing = .done
        ∧ s.transportClose = (.done, s.withEnv { s.env.traced s.cfg.logger .closing with tOpen := false }))
      ∨ (s.env.tOpen = false ∨ s.turn.answers.closing = .error)
        ∧ s.transportClose = (.error, s.withEnv (s.env.traced s.cfg.logger .closing)) := by
  cases ho : s.env.tOpen <;> cases ha : s.turn.answers.closing <;>
    simp [State.transportClose, ho, ha, State.traceEvent_eq]

/-- A read answers at most `READ_CHUNK` bytes. -/
theorem readResult_length {s : State} {bs : Bytes} (h : s.readResult = .got bs) : bs.length ≤ s.cfg.readChunk := by
  unfold State.readResult at h
  split at h
  · split at h
    · cases h; exact List.length_take_le _ _
    · cases h
  · cases h

/-! ## Slot tables -/

@[simp] theorem Node.setChanState_state (n : Node) (ch : Nat) (st : ChanState) : (n.setChanState ch st).state = n.state := rfl
@[simp] theorem Node.setChanState_nets (n : Node) (ch : Nat) (st : ChanState) : (n.setChanState ch st).nets = n.nets := rfl
@[simp] theorem Node.setChanState_oldChans (n : Node) (ch : Nat) (st : ChanState) :
    (n.setChanState ch st).oldChans = n.oldChans := rfl
@[simp] theorem Node.setChanState_gen (n : Node) (ch : Nat) (st : ChanState) : (n.setChanState ch st).gen = n.gen := rfl
@[simp] theorem Node.setChanState_length (n : Node) (ch : Nat) (st : ChanState) :
    (n.setChanState ch st).chans.length = n.chans.length := by simp [Node.setChanState]
@[simp] theorem Node.setKey_length (n : Node) (idx : Nat) (name key : Bytes) :
    (n.setKey idx name key).nets.length = n.nets.length := by simp [Node.setKey]
@[simp] theorem Node.stamp_length (n : Node) (idx : Nat) : (n.stamp idx).nets.length = n.nets.length := by
  simp [Node.stamp]

/-! ## The framer -/

/-- What the scan loop leaves is an end part of the buffer. -/
theorem scanFrames_suffix (cfg : Config) (fuel : Nat) (buf : Bytes) : (scanFrames cfg fuel buf).2 <:+ buf := by
  induction fuel generalizing buf with
  | zero => simp [scanFrames]
  | succ fuel ih =>
    simp only [scanFrames]
    split
    · exact (ih _).trans (List.drop_suffix _ _)
    · exact List.suffix_refl _
    · exact List.suffix_refl _
    · exact List.suffix_refl _
    · exact List.suffix_refl _
    · exact List.drop_suffix _ _

end Sys2Proof.Machine
end

