-- ==== Sys2Proof/Laws/Kept.lean ====
section
/-! SUPPORT. What any instruction, and any step, can write: a property that survives each single write survives every instruction and
every step. The writes of an instruction are listed once, in `Kept`; those of the pump agent and the other events in `KeptByStep`. -/

namespace Sys2Proof

/-- The instructions that write `MR`. -/
def Instr.writesMr : Instr → Bool
  | .msgNew _ _ | .msgSetop _ | .msgSetpay _ | .msgDecode _ | .varBuild _ _ | .varSet _ _ => true
  | _ => false

/-- The state a channel command writes into its slot, if it writes one (44_channel.md R283). -/
def Instr.slotState? : Instr → Option Machine.ChanState
  | .chAssign _ _ _ | .chClose _ => some .assigned
  | .chOpen _ => some .opened
  | .chUnassign _ => some .free
  | _ => none

/-- The state a node operation writes into `N.state`, if it writes one (43_node.md R250). -/
def Instr.nodeState? : Instr → Option Machine.NodeState
  | .nodeStart => some .running
  | .nodeStop _ => some .stopped
  | _ => none

end Sys2Proof

namespace Sys2Proof.Machine

/-- A property that survives every single write instruction `i` can make. -/
structure Kept (i : Instr) (P : State → Prop) : Prop where
  seqs : ∀ s q, P s → P (s.withSeqs q)
  env : ∀ s e, e.lsn = s.env.lsn → P s → P (s.withEnv e)
  mr : i.writesMr = true → ∀ s m, (m.payload.getD []).length ≤ max maxPayload (s.mr.payload.getD []).length → P s →
    P (s.withMr m)
  ackQ : ∀ s a e b, s.pump.ackQ = a ++ e :: b → P s → P (s.withPump { s.pump with ackQ := a ++ b })
  msgQ : ∀ s a e b, s.pump.msgQ = a ++ e :: b → P s → P (s.withPump { s.pump with msgQ := a ++ b })
  spawn : ∀ s, s.pump.running = false → P s → P (s.withPump s.pump.spawn)
  signalStop : ∀ s, s.pump.running = true → P s → P (s.withPump s.pump.signalStop)
  confirmStop : ∀ s, s.pump.alive = false → P s → P (s.withPump s.pump.confirmStop)
  reg : ∀ l, i = .pumpReg l → ∀ s, s.node.names l = true → P s →
    P (s.withPump { s.pump with reg := register l s.pump.reg })
  unreg : ∀ l, i = .pumpUnreg l → ∀ s, P s → P (s.withPump { s.pump with reg := unregister l s.pump.reg })
  nodeState : ∀ st, i.nodeState? = some st → ∀ s, P s → P (s.withNode { s.node with state := st })
  limits : i.negotiates = true → ∀ s (c n : Byte), P s → P (s.withNode { s.node with
    maxChannels := some c, maxNetworks := some n, nets := (List.range n.toNat).map NetSlot.fresh })
  allocate : i.negotiates = true → ∀ s (c : Byte), s.node.maxChannels = some c → P s → P (allocateChannels c.toNat s)
  options : i.negotiates = true → ∀ s reply, P s → P (recordOptions reply s)
  setKey : ∀ idx name key, i = .nodeSetkey idx (some (name, key)) → key.length = 8 → ∀ s, P s →
    P (s.withNode (s.node.setKey idx name key))
  stamp : i.negotiates = true ∨ (∃ idx r, i = .nodeSetkey idx r) → ∀ s idx, P s → P (s.withNode (s.node.stamp idx))
  chanState : ∀ st, i.slotState? = some st → ∀ s ch, P s → P (s.withNode (s.node.setChanState ch st))
  addCb : ∀ ch cb, i = .chReg ch cb → ∀ s, P s →
    P (s.withNode (s.node.setCbs ch fun cbs => if cbs.contains cb then cbs else cbs ++ [cb]))
  dropCb : ∀ ch cb, i = .chUnreg ch cb → ∀ s, P s →
    P (s.withNode (s.node.setCbs ch fun cbs => cbs.filter fun x => decide (x ≠ cb)))

namespace Kept

variable {i : Instr} {P : State → Prop} (K : Kept i P) {s : State}
include K

theorem modifySeq (f : Seq → Seq) (h : P s) : P (s.modifySeq f) := K.seqs _ _ h
theorem setPhase (p : Phase) (h : P s) : P (s.setPhase p) := K.seqs _ _ h
theorem faultCaller (f : Fault) (h : P s) : P (s.faultCaller f) := K.seqs _ _ h
theorem respond (r : Response) (h : P s) : P (s.respond r) := K.seqs _ _ (K.env _ _ rfl h)
theorem ok (r : Result) (h : P s) : P (s.ok r) := K.respond _ h
theorem raise (e : Err) (h : P s) : P (s.raise e) := K.respond _ h
theorem takeAck {opc : Nat} {go : Entry → State → State} (hg : ∀ e s, P s → P (go e s)) (h : P s) :
    P (takeAck opc go s) := by
  rcases takeAck_cases opc go s with ⟨e, -⟩ | ⟨a, x, b, hq, -, -, e⟩
  · rwa [e]
  · rw [e]; exact hg _ _ (K.ackQ _ _ _ _ hq h)
theorem takeMsg {k : Kind} {go : Entry → State → State} (hg : ∀ e s, P s → P (go e s)) (h : P s) :
    P (takeMsg k go s) := by
  rcases takeMsg_cases k go s with ⟨e, -⟩ | ⟨a, x, b, hq, -, -, e⟩
  · rwa [e]
  · rw [e]; exact hg _ _ (K.msgQ _ _ _ _ hq h)
theorem sendFrame {opc : Byte} {pay : Bytes} {go : State → State} (hg : ∀ s, P s → P (go s)) (h : P s) :
    P (sendFrame opc pay go s) := by
  rcases sendFrame_cases opc pay go s with ⟨n, -, -, e⟩ | ⟨-, e⟩ <;> rw [e]
  · exact hg _ (K.env _ _ rfl h)
  · exact K.raise _ (K.env _ _ rfl h)
theorem onPort {ok : Bool} {issue : State → State} {resume : Phase → State → State} {t : State}
    (hi : ok = true → P (s.beginOp i) → P (issue (s.beginOp i))) (hr : ∀ p, P s → P (resume p s)) (h : P s)
    (he : onPort i ok issue resume s = .next t) : P t := by
  rcases onPort_cases he with rfl | ⟨q, -, -, ha, rfl⟩ | ⟨q, -, -, -, rfl⟩
  · exact h
  · exact hi ha (K.seqs _ _ h)
  · exact hr _ h

theorem withMessage {go : Byte → Bytes → State → State} (hg : ∀ o p, P s → P (go o p s)) (h : P s) :
    P (withMessage go s) := by
  unfold Machine.withMessage; split
  · exact hg _ _ h
  · exact K.faultCaller _ h
theorem respondKind (o : Byte) (h : P s) : P (respondKind o s) := by
  unfold Machine.respondKind; split
  · exact K.ok _ h
  · exact K.raise _ h
theorem setMessage (hm : i.writesMr = true) {o : Byte} {p : Bytes} (hp : p.length ≤ maxPayload) (h : P s) : P (s.setMessage o p) :=
  K.mr hm _ _ (le_max_of_le_left hp) h
theorem withField {f : FieldName} {go : Kind → Nat → FieldType → State → State}
    (hg : ∀ k o ty, k.fieldAt f = some (o, ty) → P s → P (go k o ty s)) (h : P s) : P (withField f go s) := by
  unfold Machine.withField; split
  · exact K.faultCaller _ h
  split
  · exact K.raise _ h
  split
  · exact h
  · exact hg _ _ _ ‹_› h
theorem pushKey (idx : Nat) (h : P s) : P (pushKey idx s) := by
  unfold Machine.pushKey; split
  · exact K.raise _ h
  · exact K.sendFrame (fun s h => K.seqs _ _ (K.seqs _ _ h)) h
theorem issueSetKey (idx : Nat) (r : Option (Bytes × Bytes)) (hr : ∀ name key, r = some (name, key) → i = .nodeSetkey idx r)
    (h : P s) : P (issueSetKey idx r s) := by
  unfold Machine.issueSetKey; split
  · exact K.raise _ h
  split
  · exact K.pushKey _ h
  split
  · exact K.raise _ h
  · exact K.pushKey _ (K.setKey _ _ _ (hr _ _ rfl) (not_not.1 ‹¬ _›) _ h)
theorem keyAcked (hk : i.negotiates = true ∨ ∃ idx r, i = .nodeSetkey idx r) {idx : Nat} {go : State → State}
    (hg : ∀ s, P s → P (go s)) (h : P s) : P (keyAcked idx go s) := by
  refine K.takeAck (fun e s h => ?_) h
  split
  · exact K.raise _ h
  · exact hg _ (K.stamp hk _ _ h)
theorem capsRequest (h : P s) : P (capsRequest s) := by
  unfold Machine.capsRequest; split
  · exact K.raise _ h
  · exact K.raise _ h
  · exact K.sendFrame (fun s h => K.setPhase _ h) h
theorem capsFinish (hn : i.negotiates = true) (h : P s) : P (capsFinish s) := by
  unfold Machine.capsFinish; split
  · exact K.faultCaller _ h
  · exact K.ok _ (K.options hn _ _ (K.allocate hn _ _ ‹_› h))
theorem capsResume (hn : i.negotiates = true) (p : Phase) (h : P s) : P (capsResume p s) := by
  unfold Machine.capsResume; split <;> try exact h
  · exact K.takeMsg (fun e s h => K.modifySeq _ (K.limits hn _ _ _ h)) h
  · unfold capsPush; split
    · exact K.faultCaller _ h
    split
    · exact K.capsFinish hn h
    · exact K.issueSetKey _ _ (by intro _ _ e; cases e) h
  · exact K.keyAcked (.inl hn) (fun s h => K.modifySeq _ h) h
theorem nodeStopFinish (hn : i.nodeState? = some .stopped) (h : P s) : P (nodeStopFinish s) := by
  unfold Machine.nodeStopFinish
  rcases transportClose_cases (s.withNode { s.node with state := .stopped }) with ⟨-, -, e⟩ | ⟨-, e⟩ <;> rw [e]
  · exact K.ok _ (K.env _ _ rfl (K.nodeState _ hn _ h))
  · exact K.raise _ (K.env _ _ rfl (K.nodeState _ hn _ h))
theorem nodeStopSignal (hn : i.nodeState? = some .stopped) (h : P s) : P (nodeStopSignal s) := by
  unfold Machine.nodeStopSignal; split
  · exact K.setPhase _ (K.signalStop _ ‹_› h)
  · exact K.nodeStopFinish hn h
theorem issueChannel {ch ranges required opc} {payload : Except Err Bytes} (h : P s) :
    P (issueChannel ch ranges required opc payload s) := by
  unfold Machine.issueChannel; split
  · exact K.raise _ h
  split
  · exact K.raise _ h
  split
  · exact K.raise _ h
  split
  · exact K.raise _ h
  · exact K.sendFrame (fun s h => K.seqs _ _ (K.seqs _ _ (K.seqs _ _ h))) h
theorem finishChannel (next : Option ChanState) (hn : ∀ st, next = some st → i.slotState? = some st) (h : P s) :
    P (finishChannel next s) := by
  unfold Machine.finishChannel; split
  · exact K.ok _ (K.chanState _ (hn _ rfl) _ _ h)
  · exact K.ok _ h
theorem channelAcked {opc op} {go : State → State} (hg : ∀ s, P s → P (go s)) (h : P s) :
    P (channelAcked opc op go s) := by
  refine K.takeAck (fun e s h => ?_) h
  split
  · exact K.raise _ h
  · exact hg _ h
theorem channelResume {opc op next} (hn : ∀ st, next = some st → i.slotState? = some st) (p : Phase) (h : P s) :
    P (channelResume opc op next p s) := by
  unfold Machine.channelResume; split <;> try exact h
  exact K.channelAcked (fun s h => K.finishChannel _ hn h) h

end Kept

/-- A variant that is built has at most 9 payload bytes. -/
theorem buildPayload_length {k : Kind} {vs : List Value} (ht : k.takes vs = true) (he : k.buildError vs = none) :
    (k.buildPayload vs).length ≤ maxPayload := by
  rcases vs with _ | ⟨v1, _ | ⟨v2, _ | ⟨v3, _ | ⟨v4, _ | ⟨v5, _ | ⟨v6, vs⟩⟩⟩⟩⟩⟩ <;> cases k <;>
    simp [Kind.takes, Kind.variesTo, Kind.layout] at ht <;> (try cases v1) <;> (try cases v2) <;> (try cases v3) <;> (try cases v4) <;>
    (try simp [FieldType.takes] at ht) <;>
    (try simp [Kind.buildError, Kind.layout, FieldType.valueError, maxPayload] at he) <;>
    (try simp [Kind.buildPayload, Kind.layout, Kind.filler, FieldType.valueBytes, bytesOf16, maxPayload]) <;> try omega
  all_goals cases v5 <;> (try simp [FieldType.takes] at ht) <;> simp
/-- A setter leaves the payload no longer than it was, or within 9 bytes. -/
theorem writeField_length {k f o ty v pay pay'} (hf : k.fieldAt f = some (o, ty)) (hv : ty.takes v = true)
    (he : ty.valueError f o v = none)
    (h : writeField k f o ty v pay = some pay') : pay'.length ≤ max maxPayload pay.length := by
  have c4 : k = .capabilities → (f = .advOpts2 → pay.length = 4 → o = 4) := by
    rintro rfl rfl _; simp [Kind.fieldAt, Kind.layout] at hf; exact hf.1.symm
  cases ty <;> cases v <;> simp [FieldType.takes] at hv <;> simp only [writeField] at h
  · split at h
    · cases h; simp [FieldType.valueBytes, maxPayload]; omega
    split at h <;> cases h; simp [FieldType.valueBytes, overwrite, maxPayload]; omega
  · split at h <;> cases h; simp [FieldType.valueBytes, overwrite, bytesOf16, maxPayload]; omega
  · split at h <;> cases h; simp [FieldType.valueError] at he; simp [FieldType.valueBytes, overwrite, maxPayload]; omega
  · split at h <;> cases h; simp [FieldType.valueError, maxPayload] at he; simp [FieldType.valueBytes, maxPayload]; omega

/-- A decoded payload has at most 9 bytes. -/
theorem decodeF_length {raw : Bytes} {opc : Byte} {pay : Bytes} {n : Nat} (h : decodeF raw = .ok (opc, pay, n)) :
    pay.length ≤ maxPayload := by
  unfold decodeF at h
  split at h
  · cases h
  split at h
  · cases h
  dsimp only at h
  split at h
  · cases h
  split at h
  · cases h
  split at h
  · cases h
  · cases h; rw [List.length_take]; omega

/-- What survives every single write of an instruction survives the instruction. -/
theorem Kept.exec {i : Instr} {P : State → Prop} (K : Kept i P) {s t : State} (hi : i.isCommand = true) (h : P s)
    (he : exec i s = .next t) : P t := by
  cases i <;> first | (simp [Instr.isCommand, Instr.frame?] at hi) | skip
  all_goals simp only [Machine.exec] at he; refine K.onPort ?_ ?_ h he
  all_goals clear h he
  all_goals first | (intro p h; exact h; done) | skip
  case msgNew.refine_1 =>
    intro _ h; split
    · exact K.raise _ h
    split
    · exact K.raise _ h
    · exact K.ok _ (K.setMessage rfl (by omega) h)
  case msgSetop.refine_1 =>
    intro _ h; split
    · exact K.raise _ h
    · exact K.ok _ (K.mr rfl _ _ (le_max_right _ _) h)
  case msgSetpay.refine_1 =>
    intro _ h; split
    · exact K.raise _ h
    · exact K.ok _ (K.mr rfl _ _ (le_max_of_le_left (by simp; omega)) h)
  case msgEncode.refine_1 => intro _ h; exact K.withMessage (fun _ _ h => K.ok _ h) h
  case msgChecksum.refine_1 => intro _ h; exact K.withMessage (fun _ _ h => K.ok _ h) h
  case msgDecode.refine_1 =>
    intro _ h; split
    · exact K.raise _ h
    · exact K.ok _ (K.setMessage rfl (decodeF_length ‹_›) h)
  case msgResolve.refine_1 =>
    intro _ h; split
    · exact K.raise _ h
    · exact K.respondKind _ h
  case msgResolveMr.refine_1 =>
    intro _ h; split
    · exact K.faultCaller _ h
    · exact K.respondKind _ h
  case varBuild.refine_1 =>
    intro ha h; split
    · exact K.raise _ h
    · exact K.ok _ (K.setMessage rfl (buildPayload_length ha ‹_›) h)
  case varGet.refine_1 =>
    intro ha h
    refine K.withField (fun k o ty hf h => ?_) h
    split
    · exact K.faultCaller _ h
    split
    · exact K.raise _ h
    · exact K.ok _ h
  case varSet.refine_1 f v =>
    intro ha h
    simp only [State.acceptsField] at ha
    unfold Machine.withField
    split
    · exact K.faultCaller _ h
    rename_i opc ho
    have ho : s.mr.opcode = some opc := ho
    simp only [ho] at ha
    split
    · exact K.raise _ h
    rename_i k hk
    have hk : resolve s.cfg opc = some k := hk
    simp only [hk] at ha
    split
    · exact h
    rename_i o ty hf
    simp only [hf] at ha
    dsimp only
    split
    · exact K.raise _ h
    split
    · exact K.faultCaller _ h
    rename_i pay hp
    split
    · exact K.raise _ h
    rename_i pay' hw
    refine K.ok _ (K.mr rfl _ _ ?_ h)
    have := writeField_length hf ha ‹_› hw
    rw [hp]; exact this
  case pumpStart.refine_1 =>
    intro _ h; split
    · exact K.ok _ h
    · exact K.setPhase _ (K.spawn _ (eq_false_of_ne_true ‹_›) h)
  case pumpStart.refine_2 =>
    intro p h; split
    · split
      · exact K.ok _ h
      · exact h
    · exact h
  case pumpStop.refine_1 =>
    intro _ h; split
    · exact K.setPhase _ (K.signalStop _ ‹_› h)
    · exact K.ok _ h
  case pumpStop.refine_2 =>
    intro p h; split
    · split
      · exact h
      · exact K.ok _ (K.confirmStop _ (eq_false_of_ne_true ‹_›) h)
    · exact h
  case pumpReg.refine_1 => intro ha h; exact K.ok _ (K.reg _ rfl _ ha h)
  case pumpUnreg.refine_1 => intro ha h; exact K.ok _ (K.unreg _ rfl _ h)
  case pumpWrite.refine_1 => intro _ h; exact K.withMessage (fun _ _ h => K.sendFrame (fun _ h => K.ok _ h) h) h
  case pumpWaitack.refine_1 =>
    intro _ h; split
    · exact K.raise _ h
    · exact K.setPhase _ h
  case pumpWaitack.refine_2 =>
    intro p h; split
    · exact K.takeAck (fun _ _ h => K.ok _ h) h
    · exact h
  case pumpWaitmsg.refine_1 =>
    intro _ h; split
    · exact K.raise _ h
    · exact K.setPhase _ h
  case pumpWaitmsg.refine_2 =>
    intro p h; split
    · exact K.takeMsg (fun _ _ h => K.ok _ h) h
    · exact h
  case nodeStart.refine_1 =>
    intro _ h; unfold nodeStartIssue sendReset
    split
    · exact K.raise _ h
    all_goals
      split
      · exact K.raise _ h
      · exact K.sendFrame (fun _ h => K.setPhase _ h) h
      · rcases transportOpen_cases (s.beginOp .nodeStart) with ⟨-, -, e⟩ | ⟨-, e⟩ <;> rw [e]
        · exact K.sendFrame (fun _ h => K.setPhase _ h) (K.env _ _ rfl h)
        · exact K.raise _ (K.env _ _ rfl h)
  case nodeStart.refine_2 =>
    intro p h; split <;> try exact h
    · unfold nodeSettled; split
      · exact K.setPhase _ h
      · exact K.setPhase _ (K.spawn _ (eq_false_of_ne_true ‹_›) h)
    · unfold nodeUp; split
      · exact K.capsRequest (K.nodeState _ rfl _ h)
      · exact h
    all_goals exact K.capsResume rfl _ h
  case nodeStop.refine_1 =>
    intro _ h; unfold nodeStopIssue; split
    · exact K.raise _ h
    · exact K.raise _ h
    · split
      · exact K.sendFrame (fun _ h => K.nodeStopSignal rfl h) h
      · exact K.nodeStopSignal rfl h
  case nodeStop.refine_2 =>
    intro p h; split <;> try exact h
    unfold nodeDown; split
    · exact h
    · exact K.nodeStopFinish rfl (K.confirmStop _ (eq_false_of_ne_true ‹_›) h)
  case nodeCaps.refine_1 => intro _ h; exact K.capsRequest h
  case nodeCaps.refine_2 => intro p h; exact K.capsResume rfl _ h
  case nodeSetkey.refine_1 => intro _ h; exact K.issueSetKey _ _ (by intro _ _ e; rw [e]) h
  case nodeSetkey.refine_2 =>
    intro p h; split
    · exact K.keyAcked (.inr ⟨_, _, rfl⟩) (fun _ h => K.ok _ h) h
    · exact h
  case nodeFreech.refine_1 =>
    intro _ h; split
    · exact K.ok _ h
    · exact K.raise _ h
  case nodeGetkey.refine_1 =>
    intro _ h; split
    · exact K.ok _ h
    · exact K.raise _ h
  case chClose.refine_2 =>
    intro p h; split
    · exact K.channelAcked (fun _ h => K.setPhase _ h) h
    · refine K.takeMsg (fun e s h => ?_) h
      unfold closeTaken; split
      · exact K.finishChannel _ (by rintro _ ⟨⟩; rfl) h
      · exact h
    · exact h
  case chReg.refine_1 =>
    intro _ h; unfold changeCallbacks; split
    · exact K.raise _ h
    · exact K.ok _ (K.addCb _ _ rfl _ h)
  case chUnreg.refine_1 =>
    intro _ h; unfold changeCallbacks; split
    · exact K.raise _ h
    · exact K.ok _ (K.dropCb _ _ rfl _ h)
  all_goals first | (intro _ h; exact K.issueChannel h) | (intro p h; exact K.channelResume (by intro st e; cases e <;> rfl) p h)

/-- A property that survives every single write a step can make. -/
structure KeptByStep (P : State → Prop) : Prop where
  instr : ∀ i, Kept i P
  env : ∀ s e, e.lsn = s.env.lsn → P s → P (s.withEnv e)
  turn : ∀ s t, P s → P (s.withTurn t)
  inputs : ∀ s es, P s → P (s.withInputs es)
  reset : ∀ s, P s → P s.blockReset
  invoke : ∀ s lsn, P s → P (s.withEnv { s.env with lsn := lsn })
  start : ∀ s, s.pump.canBegin = true → P s → P (beginStep s)
  exit : ∀ s, s.pump.working = true → P s → P (exitStep s)
  receive : ∀ s buf, s.pump.working = true → P s → P (s.withPump { s.pump with rxBuf := buf, it := .scan })
  fail : ∀ s, s.pump.working = true → P s → P (s.withPump { s.pump with faulted := true })
  rescan : ∀ s buf, s.pump.working = true → P s → P (s.withPump { s.pump with rxBuf := buf, it := .read })
  dispatch : ∀ s buf k pay, s.pump.working = true → pay.length ≤ maxPayload → P s →
    P (startDispatch k pay (s.withPump { s.pump with rxBuf := buf }))
  ackInsert : ∀ s m t ts, s.pump.working = true → s.pump.it = .dispatch m (t :: ts) → m.kind = .channelEvent → P s →
    P (s.withPump { s.pump with ackQ := qInsert s.pump.ackQ m })
  msgInsert : ∀ s m t ts, s.pump.working = true → s.pump.it = .dispatch m (t :: ts) → P s →
    P (s.withPump { s.pump with msgQ := qInsert s.pump.msgQ m })
  deliver : ∀ s m t ts ts', s.pump.working = true → s.pump.it = .dispatch m (t :: ts) → P s → P (s.deliverRest m ts')

theorem Instr.ofFrame_frame? (k : Kind) (p : Bytes) : (Instr.ofFrame k p).frame? = some (k, p) := by cases k <;> rfl
/-- Every frame instruction is put into dispatch. -/
theorem exec_ofFrame (k : Kind) (p : Bytes) (s : State) : exec (.ofFrame k p) s = .next (startDispatch k p s) := by
  cases k <;> rfl

/-- What a scan extracts is a frame with at most 9 payload bytes. -/
theorem scanFrames_some {cfg fuel buf i rest} (h : scanFrames cfg fuel buf = (some i, rest)) :
    ∃ k p, i = .ofFrame k p ∧ p.length ≤ maxPayload := by
  induction fuel generalizing buf with
  | zero => simp [scanFrames] at h
  | succ fuel ih =>
    simp only [scanFrames] at h
    split at h
    · exact ih h
    all_goals try (simp at h; done)
    rename_i j n hd
    simp at h; obtain ⟨rfl, -⟩ := h
    unfold decode at hd
    split at hd
    · cases hd
    · split at hd
      · cases hd
      · cases hd; exact ⟨_, _, rfl, decodeF_length ‹_›⟩

/-- What survives every single write survives every step. -/
theorem KeptByStep.step {P : State → Prop} (K : KeptByStep P) {s t : State} (h : P s) (he : step s = .next t) : P t := by
  unfold Machine.step fetch at he
  cases hi : s.inputs with
  | nil => simp only [hi] at he; cases he; exact h
  | cons ev rest =>
    simp only [hi] at he
    obtain ⟨ag, an⟩ := ev
    cases ag with
    | request k i =>
      have h' := K.turn _ { port := k, answers := an } (K.inputs _ rest h)
      simp only [requestStep] at he
      split at he <;> rename_i hq
      · split at hq
        · cases hq; exact (K.instr _).exec (by tauto) h' he
        · cases hq
      · split at hq <;> cases hq; cases he; exact h'
    | caller k =>
      have h' := K.turn _ { port := k, answers := an } (K.inputs _ rest h)
      simp only [callerStep] at he
      split at he <;> rename_i hq
      · split at hq
        · split at hq
          · cases hq; exact (K.instr _).exec (by tauto) h' he
          · cases hq
        · cases hq
      · cases he
        split at hq
        · split at hq <;> cases hq; exact h'
        · cases hq; exact h'
    | blockReset => cases he; exact K.reset _ (K.inputs _ _ h)
    | transport b => cases he; exact K.env _ _ rfl (K.inputs _ _ h)
    | pump =>
      have h' := K.turn _ { s.turn with answers := an } (K.inputs _ rest h)
      dsimp only at he
      generalize hu : (s.withInputs rest).withTurn { s.turn with answers := an } = u at h'
      have he : (match workerStep u with | .run i t => Machine.exec i t | .done t => .next t) = Host.Outcome.next t := by
        rw [← hu]; exact he
      unfold workerStep at he
      by_cases hc : u.pump.canBegin = true
      · rw [if_pos hc] at he; cases he; exact K.start _ hc h'
      rw [if_neg hc] at he
      by_cases hw : u.pump.working = true
      swap
      · rw [if_neg hw] at he; cases he; exact h'
      rw [if_pos hw] at he
      cases hit : u.pump.it with
      | read =>
        simp only [hit] at he; cases he
        split
        · exact K.exit _ hw h'
        · unfold readStep State.rxRead
          simp only [State.traceEvent_eq]
          split
          · rename_i hx; obtain ⟨-, rfl⟩ := Prod.mk.inj hx; exact K.receive _ _ hw (K.env _ _ rfl h')
          · rename_i hx; obtain ⟨-, rfl⟩ := Prod.mk.inj hx; exact K.fail _ hw (K.env _ _ rfl h')
      | scan =>
        simp only [hit, scanStep] at he
        cases hs : scanFrames u.cfg u.pump.rxBuf.length u.pump.rxBuf with
        | mk o buf =>
          cases o with
          | none => simp only [hs] at he; cases he; exact K.rescan _ _ hw h'
          | some i =>
            simp only [hs] at he
            obtain ⟨k, p, rfl, hp⟩ := scanFrames_some hs
            rw [exec_ofFrame] at he; cases he
            exact K.dispatch _ _ _ _ hw hp h'
      | dispatch m ts =>
        cases ts with
        | nil => simp only [hit] at he; cases he; exact h'
        | cons tg ts =>
          simp only [hit] at he; cases he
          have hl : ∀ tg, P (invokeListener m tg ts u) := by
            intro tg; unfold invokeListener; split
            · exact h'
            · exact K.deliver _ _ _ _ _ hw hit (K.invoke _ _ h')
            · exact K.deliver _ _ _ _ _ hw hit (K.invoke _ _ h')
          unfold deliverStep; split
          · split
            · exact K.deliver _ _ _ _ _ hw hit (K.ackInsert _ _ _ _ hw hit ‹_› h')
            · exact K.deliver _ _ _ _ _ hw hit h'
          · exact K.deliver _ _ _ _ _ hw hit (K.msgInsert _ _ _ _ hw hit h')
          · exact K.deliver _ _ _ _ _ hw hit h'
          · exact hl _
          · exact hl _
end Sys2Proof.Machine
end

