-- ==== Sys2Proof/Laws/PerInstr.lean ====
section
/-! SUPPORT. Statements made of every instruction, one lemma per constructor. -/

namespace Sys2Proof.Laws

/-- A frame instruction encodes to its payload and 4 more bytes (30_encoding.md R80); a command-port operation encodes to nothing
(R100). -/
def EncodesFramesOnly.Statement (i : Instr) : Prop :=
  ∀ c : Config, (i.isCommand = true → encode c i = none)
    ∧ ∀ k p, i.frame? = some (k, p) → ∃ frame, encode c i = some frame ∧ frame.length = p.length + frameOverhead

/-- The statement holds of every instruction. -/
theorem encodesFramesOnly (i : Instr) : EncodesFramesOnly.Statement i := by
  intro c
  refine ⟨fun h => ?_, fun k p h => ⟨encodeF (k.opcode c) p, by simp [encode, h], by simp [encodeF, frameOverhead]⟩⟩
  cases hf : i.frame? with
  | none => simp [encode, hf]
  | some e => simp [Instr.isCommand, hf] at h

theorem EncodesFramesOnly.channelUnassign (payload : Bytes) : Statement (.channelUnassign payload) :=
  encodesFramesOnly _
theorem EncodesFramesOnly.channelAssign (payload : Bytes) : Statement (.channelAssign payload) :=
  encodesFramesOnly _
theorem EncodesFramesOnly.channelId (payload : Bytes) : Statement (.channelId payload) :=
  encodesFramesOnly _
theorem EncodesFramesOnly.channelPeriod (payload : Bytes) : Statement (.channelPeriod payload) :=
  encodesFramesOnly _
theorem EncodesFramesOnly.channelSearchTimeout (payload : Bytes) : Statement (.channelSearchTimeout payload) :=
  encodesFramesOnly _
theorem EncodesFramesOnly.channelFrequency (payload : Bytes) : Statement (.channelFrequency payload) :=
  encodesFramesOnly _
theorem EncodesFramesOnly.channelTxPower (payload : Bytes) : Statement (.channelTxPower payload) :=
  encodesFramesOnly _
theorem EncodesFramesOnly.networkKey (payload : Bytes) : Statement (.networkKey payload) :=
  encodesFramesOnly _
theorem EncodesFramesOnly.txPower (payload : Bytes) : Statement (.txPower payload) :=
  encodesFramesOnly _
theorem EncodesFramesOnly.systemReset (payload : Bytes) : Statement (.systemReset payload) :=
  encodesFramesOnly _
theorem EncodesFramesOnly.channelOpen (payload : Bytes) : Statement (.channelOpen payload) :=
  encodesFramesOnly _
theorem EncodesFramesOnly.channelClose (payload : Bytes) : Statement (.channelClose payload) :=
  encodesFramesOnly _
theorem EncodesFramesOnly.channelRequest (payload : Bytes) : Statement (.channelRequest payload) :=
  encodesFramesOnly _
theorem EncodesFramesOnly.channelBroadcastData (payload : Bytes) : Statement (.channelBroadcastData payload) :=
  encodesFramesOnly _
theorem EncodesFramesOnly.channelAcknowledgedData (payload : Bytes) : Statement (.channelAcknowledgedData payload) :=
  encodesFramesOnly _
theorem EncodesFramesOnly.channelBurstData (payload : Bytes) : Statement (.channelBurstData payload) :=
  encodesFramesOnly _
theorem EncodesFramesOnly.channelEvent (payload : Bytes) : Statement (.channelEvent payload) :=
  encodesFramesOnly _
theorem EncodesFramesOnly.channelStatus (payload : Bytes) : Statement (.channelStatus payload) :=
  encodesFramesOnly _
theorem EncodesFramesOnly.version (payload : Bytes) : Statement (.version payload) :=
  encodesFramesOnly _
theorem EncodesFramesOnly.capabilities (payload : Bytes) : Statement (.capabilities payload) :=
  encodesFramesOnly _
theorem EncodesFramesOnly.serialNumber (payload : Bytes) : Statement (.serialNumber payload) :=
  encodesFramesOnly _
theorem EncodesFramesOnly.msgNew (opc : Nat) (bs : Bytes) : Statement (.msgNew opc bs) :=
  encodesFramesOnly _
theorem EncodesFramesOnly.msgSetop (v : Nat) : Statement (.msgSetop v) :=
  encodesFramesOnly _
theorem EncodesFramesOnly.msgSetpay (bs : Bytes) : Statement (.msgSetpay bs) :=
  encodesFramesOnly _
theorem EncodesFramesOnly.msgEncode : Statement (.msgEncode) :=
  encodesFramesOnly _
theorem EncodesFramesOnly.msgChecksum : Statement (.msgChecksum) :=
  encodesFramesOnly _
theorem EncodesFramesOnly.msgDecode (raw : Bytes) : Statement (.msgDecode raw) :=
  encodesFramesOnly _
theorem EncodesFramesOnly.msgResolve (opc : Nat) : Statement (.msgResolve opc) :=
  encodesFramesOnly _
theorem EncodesFramesOnly.msgResolveMr : Statement (.msgResolveMr) :=
  encodesFramesOnly _
theorem EncodesFramesOnly.varBuild (kind : Kind) (fields : List Value) : Statement (.varBuild kind fields) :=
  encodesFramesOnly _
theorem EncodesFramesOnly.varGet (field : FieldName) : Statement (.varGet field) :=
  encodesFramesOnly _
theorem EncodesFramesOnly.varSet (field : FieldName) (v : Value) : Statement (.varSet field v) :=
  encodesFramesOnly _
theorem EncodesFramesOnly.pumpStart : Statement (.pumpStart) :=
  encodesFramesOnly _
theorem EncodesFramesOnly.pumpStop : Statement (.pumpStop) :=
  encodesFramesOnly _
theorem EncodesFramesOnly.pumpReg (l : ListenerId) : Statement (.pumpReg l) :=
  encodesFramesOnly _
theorem EncodesFramesOnly.pumpUnreg (l : ListenerId) : Statement (.pumpUnreg l) :=
  encodesFramesOnly _
theorem EncodesFramesOnly.pumpWrite : Statement (.pumpWrite) :=
  encodesFramesOnly _
theorem EncodesFramesOnly.pumpWaitack (opc : Nat) : Statement (.pumpWaitack opc) :=
  encodesFramesOnly _
theorem EncodesFramesOnly.pumpWaitmsg (kind : Nat) : Statement (.pumpWaitmsg kind) :=
  encodesFramesOnly _
theorem EncodesFramesOnly.nodeStart : Statement (.nodeStart) :=
  encodesFramesOnly _
theorem EncodesFramesOnly.nodeStop (reset : Option Bool) : Statement (.nodeStop reset) :=
  encodesFramesOnly _
theorem EncodesFramesOnly.nodeCaps : Statement (.nodeCaps) :=
  encodesFramesOnly _
theorem EncodesFramesOnly.nodeSetkey (idx : Nat) (replacement : Option (Bytes × Bytes)) : Statement (.nodeSetkey idx replacement) :=
  encodesFramesOnly _
theorem EncodesFramesOnly.nodeFreech : Statement (.nodeFreech) :=
  encodesFramesOnly _
theorem EncodesFramesOnly.nodeGetkey (name : Bytes) : Statement (.nodeGetkey name) :=
  encodesFramesOnly _
theorem EncodesFramesOnly.chAssign (ch : Nat) (name : Bytes) (type : Nat) : Statement (.chAssign ch name type) :=
  encodesFramesOnly _
theorem EncodesFramesOnly.chSetid (ch : Nat) (dev : Nat) (dtype : Nat) (ttype : Nat) : Statement (.chSetid ch dev dtype ttype) :=
  encodesFramesOnly _
theorem EncodesFramesOnly.chSetto (ch : Nat) (v : Nat) : Statement (.chSetto ch v) :=
  encodesFramesOnly _
theorem EncodesFramesOnly.chSetper (ch : Nat) (v : Nat) : Statement (.chSetper ch v) :=
  encodesFramesOnly _
theorem EncodesFramesOnly.chSetfreq (ch : Nat) (v : Nat) : Statement (.chSetfreq ch v) :=
  encodesFramesOnly _
theorem EncodesFramesOnly.chOpen (ch : Nat) : Statement (.chOpen ch) :=
  encodesFramesOnly _
theorem EncodesFramesOnly.chClose (ch : Nat) : Statement (.chClose ch) :=
  encodesFramesOnly _
theorem EncodesFramesOnly.chUnassign (ch : Nat) : Statement (.chUnassign ch) :=
  encodesFramesOnly _
theorem EncodesFramesOnly.chReg (ch : Nat) (cb : Nat) : Statement (.chReg ch cb) :=
  encodesFramesOnly _
theorem EncodesFramesOnly.chUnreg (ch : Nat) (cb : Nat) : Statement (.chUnreg ch cb) :=
  encodesFramesOnly _

end Sys2Proof.Laws
end

