-- ==== Sys2Proof/Tests/Slice0.lean ====
section
/-! SUPPORT. Tests: ill-formed terms that WellFormed refuses, the decoding of words written out from the spec, single steps with the
results of 95_test_vectors.md, and states that meet the hypotheses of each statement. -/

namespace Sys2Proof.Tests

open Sys2Proof.Machine Sys2Proof.Claims

/-! ## WellFormed refuses -/

theorem test_illformed_payload_of_ten : (Instr.version (List.replicate 10 0x00)).wellFormed = false := by decide
theorem test_wellformed_payload_of_nine : (Instr.version (List.replicate 9 0x00)).wellFormed = true := by decide
theorem test_illformed_build_missing_field : (Instr.varBuild .channelPeriod [.num 2]).wellFormed = false := by decide
theorem test_illformed_build_wrong_sort : (Instr.varBuild .networkKey [.num 0, .num 1]).wellFormed = false := by decide
theorem test_wellformed_build_short_capabilities :
    (Instr.varBuild .capabilities [.num 8, .num 8, .num 0, .num 0xBA]).wellFormed = true := by decide

theorem test_wellformed_build_reset_filler : (Instr.varBuild .systemReset [.num 0]).wellFormed = true := by decide
theorem test_illformed_build_reset_value : (Instr.varBuild .systemReset [.num 1]).wellFormed = false := by decide

/-! ## Decoding of written frames (V30, V2, V11; one per opcode) -/

/-- The frame decodes to the instruction, wholly consumed, and the instruction encodes to the frame. -/
abbrev Reads (frame : Bytes) (i : Instr) : Prop :=
  decode .default frame = .ok (i, frame.length) ∧ encode .default i = some frame

theorem test_decode_channelUnassign : Reads [0xA4, 0x01, 0x41, 0x02, 0xE6] (.channelUnassign [0x02]) := by decide
theorem test_decode_channelAssign :
    Reads [0xA4, 0x03, 0x42, 0x02, 0x00, 0x00, 0xE7] (.channelAssign [0x02, 0x00, 0x00]) := by decide
theorem test_decode_channelId : Reads [0xA4, 0x05, 0x51, 0x02, 0x34, 0x12, 0x78, 0x01, 0xAD]
    (.channelId [0x02, 0x34, 0x12, 0x78, 0x01]) := by decide
theorem test_decode_channelPeriod :
    Reads [0xA4, 0x03, 0x43, 0x02, 0x86, 0x1F, 0x7F] (.channelPeriod [0x02, 0x86, 0x1F]) := by decide
theorem test_decode_channelSearchTimeout :
    Reads [0xA4, 0x02, 0x44, 0x02, 0xFF, 0x1F] (.channelSearchTimeout [0x02, 0xFF]) := by decide
theorem test_decode_channelFrequency :
    Reads [0xA4, 0x02, 0x45, 0x02, 0x39, 0xD8] (.channelFrequency [0x02, 0x39]) := by decide
theorem test_decode_channelTxPower :
    Reads [0xA4, 0x02, 0x60, 0x02, 0x03, 0xC7] (.channelTxPower [0x02, 0x03]) := by decide
theorem test_decode_networkKey :
    Reads [0xA4, 0x09, 0x46, 0x00, 0xB9, 0xA5, 0x21, 0xFB, 0xBD, 0x72, 0xC3, 0x45, 0x64]
      (.networkKey [0x00, 0xB9, 0xA5, 0x21, 0xFB, 0xBD, 0x72, 0xC3, 0x45]) := by decide
theorem test_decode_txPower : Reads [0xA4, 0x02, 0x47, 0x00, 0x03, 0xE2] (.txPower [0x00, 0x03]) := by decide
theorem test_decode_systemReset : Reads [0xA4, 0x01, 0x4A, 0x00, 0xEF] (.systemReset [0x00]) := by decide
theorem test_decode_channelOpen : Reads [0xA4, 0x01, 0x4B, 0x02, 0xEC] (.channelOpen [0x02]) := by decide
theorem test_decode_channelClose : Reads [0xA4, 0x01, 0x4C, 0x02, 0xEB] (.channelClose [0x02]) := by decide
theorem test_decode_channelRequest :
    Reads [0xA4, 0x02, 0x4D, 0x02, 0x51, 0xB8] (.channelRequest [0x02, 0x51]) := by decide
theorem test_decode_channelBroadcastData :
    Reads [0xA4, 0x09, 0x4E, 0x02, 0x01, 0x02, 0x03, 0x04, 0x05, 0x06, 0x07, 0x08, 0xE9]
      (.channelBroadcastData [0x02, 0x01, 0x02, 0x03, 0x04, 0x05, 0x06, 0x07, 0x08]) := by decide
theorem test_decode_channelAcknowledgedData :
    Reads [0xA4, 0x09, 0x4F, 0x02, 0x01, 0x02, 0x03, 0x04, 0x05, 0x06, 0x07, 0x08, 0xE8]
      (.channelAcknowledgedData [0x02, 0x01, 0x02, 0x03, 0x04, 0x05, 0x06, 0x07, 0x08]) := by decide
theorem test_decode_channelBurstData :
    Reads [0xA4, 0x09, 0x50, 0x42, 0x01, 0x02, 0x03, 0x04, 0x05, 0x06, 0x07, 0x08, 0xB7]
      (.channelBurstData [0x42, 0x01, 0x02, 0x03, 0x04, 0x05, 0x06, 0x07, 0x08]) := by decide
theorem test_decode_channelEvent :
    Reads [0xA4, 0x03, 0x40, 0x02, 0x4B, 0x00, 0xAE] (.channelEvent [0x02, 0x4B, 0x00]) := by decide
theorem test_decode_channelStatus : Reads [0xA4, 0x02, 0x52, 0x02, 0x03, 0xF5] (.channelStatus [0x02, 0x03]) := by decide
theorem test_decode_version :
    Reads [0xA4, 0x09, 0x3E, 0x41, 0x50, 0x32, 0x55, 0x53, 0x42, 0x31, 0x2E, 0x30, 0xDB]
      (.version [0x41, 0x50, 0x32, 0x55, 0x53, 0x42, 0x31, 0x2E, 0x30]) := by decide
theorem test_decode_capabilities : Reads [0xA4, 0x05, 0x54, 0x08, 0x08, 0x00, 0xBA, 0x36, 0x79]
    (.capabilities [0x08, 0x08, 0x00, 0xBA, 0x36]) := by decide
theorem test_decode_serialNumber :
    Reads [0xA4, 0x04, 0x61, 0x78, 0x56, 0x34, 0x12, 0xC9] (.serialNumber [0x78, 0x56, 0x34, 0x12]) := by decide

/-- V4, V5, V12, V13, V11, V18. -/
theorem test_decode_refuses :
    decode .default [0xA5, 0x01, 0x4A, 0x00, 0xEF] = .error .badSync
      ∧ decode .default [0x01, 0x02, 0x03] = .error .incomplete
      ∧ decode .default [0xA4, 0x03, 0x42, 0x00, 0x00, 0x00] = .error .incomplete
      ∧ decode .default [0xA4, 0x0A, 0x00, 0x00, 0x00] = .error .payloadTooLong
      ∧ decode .default [0xA4, 0x01, 0x4A, 0x00, 0xFF] = .error (.checksumMismatch 5)
      ∧ decode .default [0xA4, 0x00, 0x4A, 0xEE, 0xA4] = .ok (.systemReset [], 4)
      ∧ decode .default [0xA4, 0x01, 0x00, 0x00, 0xA5] = .error (.unknownMessageType 0x00) := by decide

/-- The words of the opcode table: 0x41 on its own, and 0x42 with its payload bytes given. -/
theorem test_decode_table_words :
    decodeTableWord 8 0x41 = some (.channelUnassign [0x00])
      ∧ decodeTableWord 32 0x00100342 = some (.channelAssign [0x03, 0x10, 0x00])
      ∧ decodeTableWord 8 0x53 = none := by decide

/-! ## States to test on -/

/-- Reset with a written `MR`. -/
def written (opc : Byte) (pay : Bytes) : State := State.reset.withMr { opcode := some opc, payload := some pay }

/-- Reset with operation `i` in progress. -/
def busy (i : Instr) (p : Phase) (ch : Option Nat) (n : Nat) : State :=
  State.reset.withSeqs [{ op := some i, phase := p, req := none, ch := ch, i := n, reply := [0x01, 0x01] }]

/-- The transport open; writes answer a count of 0. -/
def linked (s : State) : State := s.withEnv { s.env with tOpen := true }

/-- A running pump in phase `it`, with a buffer. -/
def pumping (it : PumpPhase) (buf : Bytes) : Pump :=
  { Pump.reset with running := true, alive := true, it := it, rxBuf := buf }

/-- A channel event, as a queue holds it. -/
def event (pay : Bytes) : Entry := { opcode := 0x40, payload := pay, kind := .channelEvent }

/-- The acks and messages given. -/
def holding (acks msgs : List Entry) (s : State) : State :=
  s.withPump { pumping .read [] with ackQ := acks, msgQ := msgs }

/-- A channel slot of generation 1. -/
def slot (i : Nat) (st : ChanState) : ChanSlot := { ChanSlot.fresh 1 i with state := st }

/-- The key of V16. -/
def key : Bytes := [0xB9, 0xA5, 0x21, 0xFB, 0xBD, 0x72, 0xC3, 0x45]

/-- The name of V63's network. -/
def netName : Bytes := [0x4E, 0x3A]

/-- A running node: network slot 0 named, network slot 1 fresh, channel slots free, assigned and open. -/
def node : Node :=
  { Node.reset with
    state := .running
    maxChannels := some 3
    maxNetworks := some 2
    nets := [{ index := 0, name := .text netName, key := key }, NetSlot.fresh 1]
    chans := [slot 0 .free, slot 1 .assigned, slot 2 .opened]
    gen := 1 }

/-- `s` with that node, the transport open and the pump running. -/
def session (s : State) : State := linked ((s.withNode node).withPump (pumping .read []))

/-- `s` with one event next in the schedule. -/
def next (ag : Agent) (a : Answers) (s : State) : State := s.withInputs [{ agent := ag, answers := a }]

/-- The state after an instruction; the state itself where it has none. -/
def after (i : Instr) (s : State) : State :=
  match exec i s with
  | .next t => t
  | .fault _ | .refused _ => s

/-- The state after a step; the state itself where there is none. -/
def stepped (s : State) : State :=
  match step s with
  | .next t => t
  | .fault _ | .refused _ => s

/-- The response of an instruction on port 0. -/
def answer (i : Instr) (s : State) : Option Response := (after i s).env.responses.getLast?.map (fun e => e.2)

/-- What TX carried last. -/
def lastTx (i : Instr) (s : State) : Option Bytes := (after i s).env.tx.getLast?

/-- The state of channel slot j. -/
def chanState (s : State) (j : Nat) : Option ChanState := s.node.chans[j]?.map (fun c => c.state)

/-! ## Frames and the pump agent -/

/-- V41: the frame of an ack, scanned, goes to the collectors. -/
theorem test_frame_to_dispatch :
    (after (.channelEvent [0x02, 0x4B, 0x00]) State.reset).pump.it =
      .dispatch (event [0x02, 0x4B, 0x00]) [.listener .ackCollector, .listener .msgCollector] := by decide

/-- V40, as one step: the bad frame is skipped and the next one put into dispatch. -/
theorem test_step_skips_bad_frame :
    stepped ((State.reset.withPump
        (pumping .scan [0xA4, 0x01, 0x4A, 0x00, 0xEE, 0xA4, 0x01, 0x4A, 0x00, 0xEF])).withInputs
          [{ agent := .pump, answers := .quiet }])
      = State.reset.withPump (pumping (.dispatch { opcode := 0x4A, payload := [0x00], kind := .systemReset }
          [.listener .ackCollector, .listener .msgCollector]) []) := by decide

/-- A word of the opcode table runs as the first instruction after reset. -/
theorem test_fetch_word :
    stepped (State.reset.withFetchWord 8 0x41)
      = after (.channelUnassign [0x00]) (State.reset.withPump (pumping .scan [])) := by decide

/-! ## Codec and variants -/

theorem test_msgNew_range_first : answer (.msgNew 0x100 (List.replicate 10 0)) State.reset
    = some (.error (.valueOutOfRange .opcode)) := by decide
theorem test_msgNew_writes : (after (.msgNew 0x4B [0x11]) State.reset).mr = (written 0x4B [0x11]).mr := by decide
theorem test_msgSetop : (after (.msgSetop 0x4A) State.reset).mr = { opcode := some 0x4A, payload := none } := by decide
theorem test_msgSetpay_bound : answer (.msgSetpay (List.replicate 10 0)) (written 0x4A [0x00])
    = some (.error (.lengthError .payload)) := by decide
theorem test_msgEncode_folds : answer .msgEncode (written 0x4B [0x11])
    = some (.ok (.bytes [0xA4, 0x01, 0x4B, 0x11, 0x00])) := by decide
theorem test_msgEncode_unwritten : (after .msgEncode State.reset).seqs.map (fun q => q.phase)
    = [.faulted .unwrittenMR] := by decide
theorem test_msgChecksum : answer .msgChecksum (written 0x42 [0x00, 0x00, 0x00]) = some (.ok (.num 0xE5)) := by decide
theorem test_msgDecode : (after (.msgDecode [0xA4, 0x03, 0x40, 0x00, 0x42, 0x00, 0xA5]) State.reset).mr
    = (written 0x40 [0x00, 0x42, 0x00]).mr := by decide
theorem test_msgDecode_mismatch : answer (.msgDecode [0xA4, 0x01, 0x4A, 0x00, 0xEE]) State.reset
    = some (.error (.checksumMismatch 5)) := by decide
theorem test_msgResolve : answer (.msgResolve 0x41) State.reset = some (.ok (.kind .channelUnassign)) := by decide
theorem test_msgResolve_unknown : answer (.msgResolve 0x53) State.reset
    = some (.error (.unknownMessageType 0x53)) := by decide
theorem test_msgResolveMr : answer .msgResolveMr (written 0x40 []) = some (.ok (.kind .channelEvent)) := by decide
/-- V30, and the build R330 names. -/
theorem test_varBuild :
    (after (.varBuild .channelPeriod [.num 2, .num 8070]) State.reset).mr = (written 0x43 [0x02, 0x86, 0x1F]).mr
      ∧ (after (.varBuild .systemReset [.num 0x00]) State.reset).mr = (written 0x4A [0x00]).mr := by decide
theorem test_varBuild_length : answer (.varBuild .networkKey [.num 0, .bytes [0xB9, 0xA5, 0x21]]) State.reset
    = some (.error (.lengthError (.field .key))) := by decide
theorem test_varGet : answer (.varGet .period) (written 0x43 [0x02, 0x86, 0x1F]) = some (.ok (.num 8070)) := by decide
theorem test_varGet_bounds : answer (.varGet .code) (written 0x40 [0x02, 0x4B])
    = some (.error (.fieldOutOfBounds .code)) := by decide
theorem test_varSet_data : (after (.varSet .data (.bytes [1, 2, 3])) (written 0x4E [0x02, 0xAA])).mr
    = (written 0x4E [0x02, 0x01, 0x02, 0x03]).mr := by decide
theorem test_varSet_appends_advOpts2 : (after (.varSet .advOpts2 (.num 0x36)) (written 0x54 [8, 8, 0, 0xBA])).mr
    = (written 0x54 [8, 8, 0, 0xBA, 0x36]).mr := by decide

/-! ## Pump operations -/

theorem test_pumpStart : (after .pumpStart State.reset).pump = { Pump.reset with running := true } := by decide
theorem test_pumpStop_ends : (after .pumpStop ((busy .pumpStop .waitPumpDown none 0).withPump
    { Pump.reset with running := true, stopReq := true })).pump = Pump.reset := by decide
theorem test_pumpReg : (after (.pumpReg (.external 1)) State.reset).pump.reg
    = [.ackCollector, .msgCollector, .external 1] := by decide
theorem test_pumpUnreg_keeps_collectors : (after (.pumpUnreg .ackCollector) State.reset).pump = Pump.reset := by decide
theorem test_pumpWrite : lastTx .pumpWrite (linked (written 0x4A [0x00])) = some [0xA4, 0x01, 0x4A, 0x00, 0xEF] := by
  decide
theorem test_pumpWrite_closed : answer .pumpWrite (written 0x4A [0x00]) = some (.error .transportError) := by decide
/-- V47: the most recent ack, whatever its channel. -/
theorem test_pumpWaitack :
    let s := holding [event [0x05, 0x4B, 0x00], event [0x02, 0x4B, 0x15]] [] (busy (.pumpWaitack 0x4B) .waitAck none 0)
    answer (.pumpWaitack 0x4B) s = some (.ok (.num 0x00))
      ∧ (after (.pumpWaitack 0x4B) s).pump.ackQ = [event [0x02, 0x4B, 0x15]] := by decide
theorem test_pumpWaitmsg_range : answer (.pumpWaitmsg 21) State.reset = some (.error (.valueOutOfRange .kind)) := by decide

/-! ## Node operations -/

/-- P1 row 1a. -/
theorem test_nodeStart_first_step :
    lastTx .nodeStart State.reset = some [0xA4, 0x01, 0x4A, 0x00, 0xEF]
      ∧ (after .nodeStart State.reset).env.tOpen = true := by decide
/-- V55: no networks, then 4 free slots. -/
theorem test_nodeStart_last_step :
    let s := (busy .nodeStart .negKeys none 0).withNode
      { Node.reset with state := .running, maxChannels := some 4, maxNetworks := some 0 }
    (after .nodeStart s).node.chans = [ChanSlot.fresh 1 0, ChanSlot.fresh 1 1, ChanSlot.fresh 1 2, ChanSlot.fresh 1 3]
      ∧ answer .nodeStart s = some (.ok .nothing) := by decide
theorem test_nodeStop_not_started : answer (.nodeStop none) State.reset = some (.error .notStarted) := by decide
theorem test_nodeStop_quiet : (after (.nodeStop (some false)) (session State.reset)).env.tx = [] := by decide
theorem test_nodeCaps : lastTx .nodeCaps (session State.reset) = some [0xA4, 0x02, 0x4D, 0x00, 0x54, 0xBF] := by decide
theorem test_nodeSetkey : lastTx (.nodeSetkey 0 (some (netName, key))) (session State.reset)
    = some [0xA4, 0x09, 0x46, 0x00, 0xB9, 0xA5, 0x21, 0xFB, 0xBD, 0x72, 0xC3, 0x45, 0x64] := by decide
theorem test_nodeFreech : answer .nodeFreech (session State.reset) = some (.ok (.num 0)) := by decide
theorem test_nodeGetkey : answer (.nodeGetkey netName) (session State.reset) = some (.ok (.num 0))
    ∧ answer (.nodeGetkey [0x78]) (session State.reset) = some (.error (.notFound .network)) := by decide

/-! ## Channel operations -/

theorem test_chAssign : lastTx (.chAssign 0 netName 0x10) (session State.reset)
    = some (encodeF 0x42 [0x00, 0x10, 0x00]) := by decide
/-- V63: the slot check is first, then the range. -/
theorem test_chAssign_check_order :
    answer (.chAssign 9 [] 0x100) (session State.reset) = some (.error (.notFound .channel))
      ∧ answer (.chAssign 0 [] 0x100) (session State.reset) = some (.error (.valueOutOfRange .type)) := by decide
theorem test_chSetid : lastTx (.chSetid 1 0x1234 0x78 0x01) (session State.reset)
    = some (encodeF 0x51 [0x01, 0x34, 0x12, 0x78, 0x01]) := by decide
theorem test_chSetto : lastTx (.chSetto 1 0xFF) (session State.reset) = some (encodeF 0x44 [0x01, 0xFF]) := by decide
theorem test_chSetper : lastTx (.chSetper 1 65535) (session State.reset) = some (encodeF 0x43 [0x01, 0xFF, 0xFF]) := by
  decide
theorem test_chSetper_range : answer (.chSetper 1 65536) (session State.reset) = some (.error (.valueOutOfRange .v)) := by
  decide
theorem test_chSetfreq : lastTx (.chSetfreq 1 0x39) (session State.reset) = some (encodeF 0x45 [0x01, 0x39]) := by decide
/-- V60: the slot opens on a success ack and not before. -/
theorem test_chOpen :
    let s := (holding [event [0x01, 0x4B, 0x00]] [] (busy (.chOpen 1) .waitAck (some 1) 0)).withNode node
    chanState (after (.chOpen 1) (session State.reset)) 1 = some .assigned
      ∧ chanState (after (.chOpen 1) s) 1 = some .opened := by decide
theorem test_chOpen_bad_ack :
    let s := (holding [event [0x01, 0x4B, 0x15]] [] (busy (.chOpen 1) .waitAck (some 1) 0)).withNode node
    answer (.chOpen 1) s = some (.error (.channelError .opening)) ∧ chanState (after (.chOpen 1) s) 1 = some .assigned := by
  decide
/-- V20: the ack's copy is dropped, and the close holds. -/
theorem test_chClose_drops_the_ack :
    let s := (holding [] [event [0x02, 0x4C, 0x00]] (busy (.chClose 2) .waitClosed (some 2) 0)).withNode node
    (after (.chClose 2) s).pump.msgQ = [] ∧ chanState (after (.chClose 2) s) 2 = some .opened := by decide
/-- V62: the closed event of another channel ends the close. -/
theorem test_chClose_ends :
    let s := (holding [] [event [0x03, 0x01, 0x07]] (busy (.chClose 2) .waitClosed (some 2) 0)).withNode node
    answer (.chClose 2) s = some (.ok .nothing) ∧ chanState (after (.chClose 2) s) 2 = some .assigned := by decide
theorem test_chUnassign : chanState (after (.chUnassign 1)
    ((holding [event [0x01, 0x41, 0x00]] [] (busy (.chUnassign 1) .waitAck (some 1) 0)).withNode node)) 1 = some .free := by
  decide
theorem test_chReg : (after (.chReg 2 5) (session State.reset)).node.chans.map (fun c => c.cbs) = [[], [], [5]] := by decide
theorem test_chUnreg_no_slot : answer (.chUnreg 8 1) (session State.reset) = some (.error (.notFound .channel)) := by decide

/-! ## States that meet the hypotheses

One theorem for each statement of Obligations.lean that has hypotheses, with a state, operands or bytes for each clause. -/

theorem witness_ChecksumIsNeverAllOnes : decodeF [0xA4, 0x01, 0x4A, 0x00, 0xEF] = .ok (0x4A, [0x00], 5) := by decide

theorem witness_FrameRoundTrip :
    (1 ≤ ([0x00] : Bytes).length ∧ ([0x00] : Bytes).length ≤ 9)
      ∧ 1 ≤ (List.replicate 9 0xFF : Bytes).length ∧ (List.replicate 9 0xFF : Bytes).length ≤ 9 := by decide

/-- One string for each check: 4 bytes; no sync; length 10; length 2 in 5 bytes; length 9 in 13 bytes, and length 0 in 5. -/
theorem witness_DecodeChecksInOrder :
    ([0xA4, 0x00, 0x4A, 0xEE] : Bytes).length < 5
      ∧ (5 ≤ ([0xA5, 0x0A, 0, 0, 0] : Bytes).length ∧ ([0xA5, 0x0A, 0, 0, 0] : Bytes).getD 0 0 ≠ 0xA4)
      ∧ (([0xA4, 0x0A, 0, 0, 0] : Bytes).getD 0 0 = 0xA4 ∧ 9 < (([0xA4, 0x0A, 0, 0, 0] : Bytes).getD 1 0).toNat)
      ∧ ((([0xA4, 0x02, 0, 0, 0] : Bytes).getD 1 0).toNat ≤ 9
        ∧ ([0xA4, 0x02, 0, 0, 0] : Bytes).length < (([0xA4, 0x02, 0, 0, 0] : Bytes).getD 1 0).toNat + 4)
      ∧ ((([0xA4, 0x09, 0, 0, 0, 0, 0, 0, 0, 0, 0, 0, 0] : Bytes).getD 1 0).toNat + 4
        ≤ ([0xA4, 0x09, 0, 0, 0, 0, 0, 0, 0, 0, 0, 0, 0] : Bytes).length)
      ∧ (([0xA4, 0x00, 0x4A, 0xEE, 0xA4] : Bytes).getD 1 0).toNat + 4 ≤ ([0xA4, 0x00, 0x4A, 0xEE, 0xA4] : Bytes).length := by
  decide

theorem witness_DecodeIgnoresTrailingBytes :
    (decodeF [0xA4, 0x01, 0x4A, 0x00, 0xEF, 0xA4] = .ok (0x4A, [0x00], 5) ∧ 5 ≤ 5 + ([] : Bytes).length)
      ∧ decodeF [0xA4, 0x00, 0x4A, 0xEE, 0xA4] = .ok (0x4A, [], 4) ∧ 5 ≤ 4 + ([0x00] : Bytes).length := by decide

/-- Lawful parameters, a row of the map, and a byte of no row. -/
theorem witness_OpcodeMapIsOneToOne :
    Config.default.wf = true ∧ resolve .default 0x51 = some .channelId
      ∧ (∀ b ∈ (opcodeRows .default).map (fun r => r.opc), b ≠ 0x53) := by decide

theorem witness_DecodeOfEncodeIsTheInstruction :
    Config.default.wf = true
      ∧ ((Instr.systemReset []).wellFormed = true ∧ encode .default (.systemReset []) = some [0xA4, 0x00, 0x4A, 0xEE]
        ∧ 5 ≤ 4 + ([0x00] : Bytes).length)
      ∧ (Instr.version (List.replicate 9 0)).wellFormed = true
      ∧ (encode .default (.version (List.replicate 9 0))).map List.length = some 13 := by decide

theorem witness_StepRunsTheDecodedFrame :
    let s := next .pump .quiet (State.reset.withPump (pumping .scan [0xA4, 0x01, 0x4B, 0x11, 0x00, 0xA4]))
    s.inputs = [{ agent := .pump, answers := .quiet }] ∧ s.pump.alive = true ∧ s.pump.faulted = false ∧ s.pump.it = .scan
      ∧ decode s.cfg s.pump.rxBuf = .ok (.channelOpen [0x11], 5) := by decide

/-- An idle port, a busy one that is asked again, and a caller's next step. -/
theorem witness_StepRunsTheOperationOnThePort :
    let s := next (.request 0 .pumpStart) .quiet State.reset
    let u := next (.request 0 .pumpStart) .quiet (busy .pumpStart .waitPumpUp none 0)
    let v := next (.caller 0) .quiet (busy .pumpStart .waitPumpUp none 0)
    Instr.pumpStart.isCommand = true
      ∧ (s.inputs = [{ agent := .request 0 .pumpStart, answers := .quiet }]
        ∧ (s.seqs[0]?).map (fun q => q.phase) = some .idle)
      ∧ (u.inputs = [{ agent := .request 0 .pumpStart, answers := .quiet }]
        ∧ (u.seqs[0]?).map (fun q => q.phase) = some .waitPumpUp)
      ∧ v.inputs = [{ agent := .caller 0, answers := .quiet }]
      ∧ (v.seqs[0]?).map (fun q => (q.op, q.phase)) = some (some .pumpStart, .waitPumpUp) := by decide

/-- A pump about to scan a buffer. -/
def scanning (buf : Bytes) : State := next .pump .quiet (State.reset.withPump (pumping .scan buf))

/-- The shortest skip, the longest, and each of the four other stops. -/
theorem witness_ScanSkipsOrStops :
    (∀ buf ∈ ([[0xA4, 0x00, 0x4A, 0x00, 0xA4], []] : List Bytes),
        (scanning buf).inputs = [{ agent := .pump, answers := .quiet }] ∧ (scanning buf).pump.alive = true
          ∧ (scanning buf).pump.faulted = false ∧ (scanning buf).pump.it = .scan)
      ∧ decodeF (scanning [0xA4, 0x00, 0x4A, 0x00, 0xA4]).pump.rxBuf = .error (.checksumMismatch 4)
      ∧ decodeF (scanning [0xA4, 0x09, 0, 0, 0, 0, 0, 0, 0, 0, 0, 0, 0]).pump.rxBuf = .error (.checksumMismatch 13)
      ∧ decode .default (scanning [0x00, 0xA4, 0x01, 0x4A, 0x00]).pump.rxBuf = .error .badSync
      ∧ decode .default (scanning []).pump.rxBuf = .error .incomplete
      ∧ decode .default (scanning [0xA4, 0x0A, 0, 0, 0]).pump.rxBuf = .error .payloadTooLong
      ∧ decode .default (scanning [0xA4, 0x01, 0x00, 0x00, 0xA5]).pump.rxBuf = .error (.unknownMessageType 0x00) := by
  decide

/-- A started worker; one that reads, up to the last byte of `READ_CHUNK`; one whose transport is closed; one told to stop. -/
theorem witness_WorkerBeginsReadsAndExits :
    let a := { Answers.quiet with read := .got (List.replicate 64 0x00) }
    let s := next .pump a (State.reset.withPump Pump.reset.spawn)
    let u := next .pump a (linked (State.reset.withPump (pumping .read [])))
    let v := next .pump a (State.reset.withPump (pumping .read []).signalStop)
    (s.inputs = [{ agent := .pump, answers := a }] ∧ s.pump.running = true ∧ s.pump.alive = false
        ∧ s.pump.stopReq = false ∧ s.pump.faulted = false)
      ∧ (u.inputs = [{ agent := .pump, answers := a }] ∧ u.pump.alive = true ∧ u.pump.faulted = false
        ∧ u.pump.it = .read ∧ u.pump.stopReq = false ∧ u.env.tOpen = true ∧ 1 ≤ u.cfg.readChunk
        ∧ a.read = .got (List.replicate 64 0x00) ∧ (List.replicate 64 0x00 : Bytes).length ≤ u.cfg.readChunk
        ∧ (u.withEnv Env.reset).env.tOpen = false)
      ∧ v.inputs = [{ agent := .pump, answers := a }] ∧ v.pump.alive = true ∧ v.pump.faulted = false
      ∧ v.pump.it = .read ∧ v.pump.stopReq = true := by decide

/-- A pump about to deliver an ack to one target. -/
def delivering (a : Answers) (t : Target) : State :=
  next .pump a (State.reset.withPump (pumping (.dispatch (event [0x02, 0x4B, 0x00]) [t]) []))

/-- Each kind of target, with a listener that returns and one that does not. -/
theorem witness_MessageIsDelivered :
    let held := { Answers.quiet with listener := .pending }
    (∀ t ∈ ([.listener .ackCollector, .listener .msgCollector, .listener (.external 1), .cb 1 2 5] : List Target),
        (delivering .quiet t).inputs = [{ agent := .pump, answers := .quiet }]
          ∧ (delivering .quiet t).pump.alive = true ∧ (delivering .quiet t).pump.faulted = false
          ∧ (delivering .quiet t).pump.it = .dispatch (event [0x02, 0x4B, 0x00]) (t :: []))
      ∧ (delivering held (.cb 1 2 5)).inputs = [{ agent := .pump, answers := held }]
      ∧ Answers.quiet.listener ≠ .pending ∧ held.listener = .pending := by decide

/-- A slot's own message, and a message of a kind that is not channel-scoped. -/
theorem witness_ChannelListenerFilters :
    let s := (delivering .quiet (.listener (.channelL 1 2))).withNode node
    s.inputs = [{ agent := .pump, answers := .quiet }] ∧ s.pump.alive = true ∧ s.pump.faulted = false
      ∧ s.pump.it = .dispatch (event [0x02, 0x4B, 0x00]) (.listener (.channelL 1 2) :: [])
      ∧ (s.node.chans ++ s.node.oldChans).find? (fun c => decide (c.gen = 1 ∧ c.index.toNat = 2)) = some (slot 2 .opened)
      ∧ (event [0x02, 0x4B, 0x00]).kind ∈ scopedKinds ∧ Kind.networkKey ∉ scopedKinds := by
  decide

theorem witness_TakeFindsTheMostRecentMatch :
    FirstIn (fun x => decide (x.kind = .channelEvent) = true) [event [1], event [2]] [] (event [1]) [event [2]] :=
  ⟨rfl, by decide, by decide⟩

theorem witness_BlockResetStep :
    (next .blockReset .quiet (session State.reset)).inputs = [{ agent := .blockReset, answers := .quiet }] := by decide

/-- A running node with a frame to scan meets all the invariants, and its next step is no idle one. -/
def lively : State :=
  next .pump .quiet ((session State.reset).withPump (pumping .scan [0xA4, 0x01, 0x4A, 0x00, 0xEF]))

theorem lively_step : step lively = .next (stepped lively) := rfl
theorem lively_moves : (stepped lively).pump ≠ lively.pump := by decide

theorem witness_StepKeepsMessagesSound : lively.MessagesSound ∧ step lively = .next (stepped lively) :=
  ⟨⟨by decide, by decide, by decide, by decide, by decide, by decide⟩, rfl⟩
theorem witness_StepKeepsPumpFlagsSound : lively.pump.FlagsSound ∧ step lively = .next (stepped lively) :=
  ⟨by decide, rfl⟩
theorem witness_StepKeepsTablesSound :
    let s := lively.withNode { node with maxNetworks := some 2 }
    s.TablesSound ∧ step s = .next (stepped s) :=
  ⟨⟨by decide, by decide, by decide⟩, rfl⟩
theorem witness_StepKeepsSequencersSound : lively.SequencersSound ∧ step lively = .next (stepped lively) :=
  ⟨⟨by decide, by decide, by decide⟩, rfl⟩
theorem witness_StepKeepsTheParameters : step lively = .next (stepped lively) := rfl

/-- V42 and V43: a wedged buffer, with the pump's step next. -/
theorem witness_FramerStaysWedged :
    let s := next .pump .quiet (State.reset.withPump (pumping .scan [0x00, 0xA4, 0x01, 0x4A, 0x00, 0xEF]))
    Wedged s.cfg s.pump.rxBuf = true ∧ s.pump.alive = true ∧ s.pump.it = .scan
      ∧ (∀ ev ∈ s.inputs.head?, ev.agent ≠ .blockReset) ∧ step s = .next (stepped s) :=
  ⟨by decide, by decide, by decide, by decide, rfl⟩

theorem witness_PumpAndCallersKeepApart :
    lively.inputs = { agent := .pump, answers := .quiet } :: [] ∧ step lively = .next (stepped lively)
      ∧ (next (.request 0 .pumpStart) .quiet State.reset).inputs
        = { agent := .request 0 .pumpStart, answers := .quiet } :: [] :=
  ⟨by decide, rfl, by decide⟩

theorem witness_ErrorsLeaveMrAlone :
    exec (.msgSetop 256) (written 0x4A []) = .next (after (.msgSetop 256) (written 0x4A []))
      ∧ (after (.msgSetop 256) (written 0x4A [])).env.responses
        = (written 0x4A []).env.responses ++ [(0, .error (.valueOutOfRange .opcode))] :=
  ⟨rfl, by decide⟩

theorem witness_FaultsAreForGood :
    let s := next .pump .quiet ((busy .msgEncode (.faulted .unwrittenMR) none 0).withPump
      { pumping .read [] with faulted := true })
    s.inputs = { agent := .pump, answers := .quiet } :: [] ∧ Agent.pump ≠ .blockReset ∧ step s = .next (stepped s)
      ∧ s.pump.faulted = true ∧ (s.seqs[0]?).map (fun q => q.phase) = some (.faulted .unwrittenMR) :=
  ⟨by decide, by decide, rfl, by decide, by decide⟩

/-- The step of V60 that opens the slot. -/
def opening : State :=
  next (.caller 0) .quiet ((holding [event [0x01, 0x4B, 0x00]] [] (busy (.chOpen 1) .waitAck (some 1) 0)).withNode node)

theorem witness_ChannelOpensOnlyOnItsAck :
    step opening = .next (stepped opening) ∧ chanState (stepped opening) 1 = some .opened
      ∧ chanState opening 1 ≠ some .opened :=
  ⟨rfl, by decide, by decide⟩

theorem witness_NodeStateMoves :
    let s := (session State.reset).withPump Pump.reset
    exec (.nodeStop (some false)) s = .next (after (.nodeStop (some false)) s)
      ∧ (after (.nodeStop (some false)) s).node.state ≠ s.node.state :=
  ⟨rfl, by decide⟩

theorem witness_NodeStopKeepsTheTables :
    exec (.nodeStop none) (session State.reset) = .next (after (.nodeStop none) (session State.reset)) := rfl

theorem witness_ResponseComesWithIdle :
    exec .nodeFreech (session State.reset) = .next (after .nodeFreech (session State.reset)) := rfl

theorem witness_TxCarriesWholeFrames :
    exec .nodeCaps (session State.reset) = .next (after .nodeCaps (session State.reset)) := rfl

theorem witness_LoggerChangesNothingElse :
    let s := { lively with cfg := { lively.cfg with logger := true } }
    s.withoutLogger = lively.withoutLogger ∧ step s = .next (stepped s) :=
  ⟨by decide, rfl⟩

theorem witness_FrameIsPutIntoDispatch :
    (Instr.channelUnassign []).frame? = some (.channelUnassign, [])
      ∧ (Instr.serialNumber (List.replicate 9 0)).frame? = some (.serialNumber, List.replicate 9 0) := by decide

theorem witness_MessageIsWrittenAndRead :
    PortIdle (written 0x4A []) ∧ (written 0x4A []).mr = { opcode := some 0x4A, payload := some [] } := by decide

/-- Reset with the opcode of `MR` alone written. -/
def halfWritten (opc : Byte) : State := State.reset.withMr { opcode := some opc, payload := none }

/-- `MR` unwritten; its opcode alone written: of no variant, of one without the field, and with each sort of value. -/
theorem witness_UnwrittenMrFaultsTheCaller :
    (PortIdle State.reset ∧ Unwritten State.reset ∧ State.reset.mr.opcode = none)
      ∧ (PortIdle (halfWritten 0x43) ∧ (halfWritten 0x43).mr = { opcode := some 0x43, payload := none }
        ∧ resolve .default 0x00 = none ∧ resolve .default 0x43 = some .channelPeriod
        ∧ NoField .channelPeriod .key ∧ HasField .channelPeriod .period 1 .word
        ∧ resolve .default 0x46 = some .networkKey ∧ HasField .networkKey .key 1 (.fixed 8))
      ∧ ¬ OfSort .word (.bytes []) ∧ TooBig .word (.num 65536) ∧ WrongLength 1 (.fixed 8) (.bytes [])
      ∧ (OfSort .word (.num 65535) ∧ ¬ TooBig .word (.num 65535) ∧ ¬ WrongLength 1 .word (.num 65535)) :=
  ⟨by decide, by decide, by simp [OfSort], by simp [TooBig], by simp [WrongLength], by simp [OfSort, TooBig, WrongLength]⟩

theorem witness_MessageDecodeResult :
    PortIdle State.reset ∧ decodeF [0xA4, 0x00, 0x4A, 0xEE, 0xA4] = .ok (0x4A, [], 4)
      ∧ decodeF [0xA4, 0x00, 0x4A, 0xEE] = .error .incomplete ∧ decodeF [0xA5, 0, 0, 0, 0] = .error .badSync
      ∧ decodeF [0xA4, 0x0A, 0, 0, 0] = .error .payloadTooLong
      ∧ decodeF [0xA4, 0x01, 0x4A, 0x00, 0xFF] = .error (.checksumMismatch 5) := by decide

theorem witness_MessageResolveResult :
    State.reset.cfg.wf = true ∧ PortIdle State.reset ∧ 255 < 256 ∧ (∀ k ∈ Kind.all, k.opcode .default ≠ 0xFF)
      ∧ (written 0x40 []).mr.opcode = some (Kind.channelEvent.opcode .default) ∧ PortIdle (written 0xFF [])
      ∧ (written 0xFF []).mr.opcode = some 0xFF := by decide

theorem witness_VariantsAreBuiltAsLaidOut : PortIdle State.reset ∧ key.length = 8 := by decide

/-- A second field one above its maximum after a first at its maximum; a key of 7 bytes and data of 9; one value for SYSTEM_RESET that is
not its filler; a number for a key. -/
theorem witness_VariantBuildErrors :
    PortIdle State.reset
      ∧ (BuildShape .channelPeriod [.num 255, .num 65536]
        ∧ (fieldsOf .channelPeriod).zip ([.num 255, .num 65536] : List Value)
          = [((.channel, 0, .byte), .num 255)] ++ ((.period, 1, .word), .num 65536) :: []
        ∧ ¬ TooBig .byte (.num 255) ∧ TooBig .word (.num 65536))
      ∧ (BuildShape .networkKey [.num 255, .bytes (key.take 7)] ∧ WrongLength 1 (.fixed 8) (.bytes (key.take 7)))
      ∧ (BuildShape .channelBurstData [.num 0, .bytes (0x00 :: key)]
        ∧ (fieldsOf .channelBurstData).zip ([.num 0, .bytes (0x00 :: key)] : List Value)
          = [((.channel, 0, .byte), .num 0)] ++ ((.data, 1, .rest), .bytes (0x00 :: key)) :: []
        ∧ (∀ x ∈ (fieldsOf .channelBurstData).zip ([.num 0, .bytes (0x00 :: key)] : List Value), ¬ TooBig x.1.2.2 x.2)
        ∧ ¬ WrongLength 0 .byte (.num 0) ∧ WrongLength 1 .rest (.bytes (0x00 :: key)))
      ∧ (([.num 1] : List Value).length ≠ (fieldsOf .systemReset).length ∧ ([.num 1] : List Value) ≠ [.num 0x00])
      ∧ ∃ x ∈ (fieldsOf .networkKey).zip ([.num 0, .num 1] : List Value), ¬ OfSort x.1.2.2 x.2 := by
  refine ⟨by decide, ⟨⟨by decide, ?_⟩, by decide, ?_, ?_⟩, ⟨⟨by decide, ?_⟩, ?_⟩, ⟨⟨by decide, ?_⟩, by decide, ?_, ?_, ?_⟩,
    by decide, ?_⟩ <;> simp [fieldsOf, OfSort, TooBig, WrongLength, key]

/-- A field of each type, an opcode of no variant, and a field of another variant. -/
theorem witness_FieldReads :
    PortIdle (written 0x43 [0x02, 0x86, 0x1F]) ∧ (written 0x43 [0x02]).mr = { opcode := some 0x43, payload := some [0x02] }
      ∧ resolve .default 0x00 = none ∧ resolve .default 0x43 = some .channelPeriod
      ∧ NoField .channelPeriod .key ∧ HasField .channelPeriod .channel 0 .byte
      ∧ HasField .channelPeriod .period 1 .word
      ∧ resolve .default 0x46 = some .networkKey ∧ HasField .networkKey .key 1 (.fixed 8)
      ∧ resolve .default 0x3E = some .version ∧ HasField .version .version 0 .rest := by decide

/-- A field of each type, an opcode of no variant, a field of another variant, and a value of another sort. -/
theorem witness_FieldWrites :
    (PortIdle (written 0x43 [0x02, 0x00, 0x20])
      ∧ (written 0x43 [0x02]).mr = { opcode := some 0x43, payload := some [0x02] } ∧ resolve State.reset.cfg 0x00 = none
      ∧ resolve State.reset.cfg 0x43 = some .channelPeriod ∧ NoField .channelPeriod .key
      ∧ HasField .channelPeriod .channel 0 .byte
      ∧ ¬ (Kind.channelPeriod = .capabilities ∧ FieldName.channel = .advOpts2)
      ∧ HasField .channelPeriod .period 1 .word
      ∧ resolve State.reset.cfg 0x54 = some .capabilities ∧ HasField .capabilities .advOpts2 4 .byte
      ∧ resolve State.reset.cfg 0x61 = some .serialNumber ∧ HasField .serialNumber .serial 0 (.fixed 4)
      ∧ resolve State.reset.cfg 0x4E = some .channelBroadcastData
      ∧ HasField .channelBroadcastData .data 1 .rest)
      ∧ ¬ OfSort .word (.bytes []) :=
  ⟨by decide, by simp [OfSort]⟩

theorem witness_FieldReadsBackAsSet :
    (HasField .channelPeriod .period 1 .word
      ∧ writeField .channelPeriod .period 1 .word (.num 65535) [0x02, 0x00, 0x20] = some [0x02, 0xFF, 0xFF]
      ∧ FieldName.channel ≠ .period ∧ HasField .channelPeriod .channel 0 .byte
      ∧ readField 0 .byte [0x02, 0x00, 0x20] = some (.num 2))
      ∧ OfSort .word (.num 65535) ∧ ¬ TooBig .word (.num 65535) ∧ ¬ WrongLength 1 .word (.num 65535) :=
  ⟨by decide, by simp [OfSort], by simp [TooBig], by simp [WrongLength]⟩

theorem witness_PumpHandshakes :
    PortIdle State.reset ∧ InPhase (busy .pumpStart .waitPumpUp none 0) .pumpStart .waitPumpUp
      ∧ InPhase (busy .pumpStop .waitPumpDown none 0) .pumpStop .waitPumpDown := by decide

/-- A slot that exists, and one that does not. -/
theorem witness_ListenerRegistration :
    PortIdle (session State.reset)
      ∧ (∃ c ∈ (session State.reset).node.chans ++ (session State.reset).node.oldChans, c.gen = 1 ∧ c.index.toNat = 2)
      ∧ ∀ c ∈ (session State.reset).node.chans ++ (session State.reset).node.oldChans, ¬ (c.gen = 2 ∧ c.index.toNat = 2) := by
  decide

theorem witness_PumpWriteSendsTheMessage :
    PortIdle (linked (written 0x4A [])) ∧ (linked (written 0x4A [])).mr = { opcode := some 0x4A, payload := some [] }
      ∧ Writable (linked (written 0x4A [])) 0 ∧ Unwritable (written 0x4A []) := by decide

theorem witness_ack : FirstIn (IsAckOf 0x4B) [event [0x05, 0x4B, 0x00], event [0x02, 0x4B, 0x15]] []
    (event [0x05, 0x4B, 0x00]) [event [0x02, 0x4B, 0x15]] :=
  ⟨rfl, by simp, by unfold IsAckOf; decide⟩

theorem witness_WaitsTakeAMatch :
    let s := holding [event [0x05, 0x4B, 0x00], event [0x02, 0x4B, 0x15]] [] (busy (.pumpWaitack 0x4B) .waitAck none 0)
    let u := holding [] [event []] (busy (.pumpWaitmsg 16) .waitMsg none 0)
    PortIdle State.reset
      ∧ (InPhase s (.pumpWaitack 0x4B) .waitAck
        ∧ FirstIn (IsAckOf 0x4B) s.pump.ackQ [] (event [0x05, 0x4B, 0x00]) [event [0x02, 0x4B, 0x15]])
      ∧ InPhase (busy (.pumpWaitack 0x4B) .waitAck none 0) (.pumpWaitack 0x4B) .waitAck
      ∧ (InPhase u (.pumpWaitmsg Kind.channelEvent.number) .waitMsg
        ∧ FirstIn (fun x => x.kind = .channelEvent) u.pump.msgQ [] (event []) [])
      ∧ InPhase (busy (.pumpWaitmsg 16) .waitMsg none 0) (.pumpWaitmsg Kind.channelEvent.number) .waitMsg :=
  ⟨by decide, ⟨by decide, witness_ack⟩, by decide, ⟨by decide, rfl, by simp, rfl⟩, by decide⟩

/-- A state with other answers of the environment. -/
def answered (a : Answers) (s : State) : State := s.withTurn { s.turn with answers := a }

theorem witness_NodeStartSteps :
    (PortIdle (session State.reset) ∧ (session State.reset).node.state = .running)
      ∧ (PortIdle State.reset ∧ State.reset.node.state ≠ .running ∧ State.reset.turn.answers.isOpen = .done
        ∧ State.reset.turn.answers.write = .wrote 0 ∧ State.reset.env.tOpen = false
        ∧ State.reset.turn.answers.opening = .done ∧ (linked State.reset).env.tOpen = true)
      ∧ (let s := answered { Answers.quiet with isOpen := .error } State.reset
        PortIdle s ∧ s.node.state ≠ .running ∧ s.turn.answers.isOpen = .error)
      ∧ (let s := answered { Answers.quiet with write := .error } State.reset
        PortIdle s ∧ s.node.state ≠ .running ∧ s.turn.answers.isOpen = .done ∧ s.env.tOpen = false
          ∧ s.turn.answers.opening = .done ∧ s.turn.answers.write = .error ∧ (linked s).env.tOpen = true)
      ∧ (let s := answered { Answers.quiet with opening := .error } State.reset
        PortIdle s ∧ s.node.state ≠ .running ∧ s.turn.answers.isOpen = .done ∧ s.env.tOpen = false
          ∧ s.turn.answers.opening = .error)
      ∧ InPhase (busy .nodeStart .settle none 0) .nodeStart .settle
      ∧ (InPhase (busy .nodeStart .waitPumpUp none 0) .nodeStart .waitPumpUp
        ∧ (busy .nodeStart .waitPumpUp none 0).pump.alive = false)
      ∧ (let s := holding [] [] (busy .nodeStart .waitPumpUp none 0)
        InPhase s .nodeStart .waitPumpUp ∧ s.pump.alive = true ∧ Writable (linked s) 0 ∧ Unwritable s) := by decide

theorem witness_NodeStopSteps :
    (PortIdle State.reset ∧ State.reset.node.state ≠ .running)
      ∧ (let s := answered { Answers.quiet with write := .error } (session State.reset)
        PortIdle s ∧ s.node.state = .running ∧ (none : Option Bool) ≠ some false ∧ Unwritable s)
      ∧ (let s := session State.reset
        PortIdle s ∧ s.node.state = .running ∧ Writable s 0 ∧ s.pump.running = true
          ∧ (s.withPump Pump.reset).pump.running = false ∧ Closable s
          ∧ Unclosable (answered { Answers.quiet with closing := .error } s))
      ∧ (let s := State.reset.withNode node
        PortIdle s ∧ s.node.state = .running ∧ s.pump.running = false ∧ Unclosable s)
      ∧ (let s := holding [] [] (busy (.nodeStop none) .waitPumpDown none 0)
        InPhase s (.nodeStop none) .waitPumpDown ∧ s.pump.alive = true)
      ∧ (let s := busy (.nodeStop none) .waitPumpDown none 0
        InPhase s (.nodeStop none) .waitPumpDown ∧ s.pump.alive = false ∧ Closable (linked s) ∧ Unclosable s
          ∧ Unclosable (answered { Answers.quiet with closing := .error } (linked s))) := by decide

/-- The capabilities reply of V55, a failing request, a push of the last slot, one that fails, one past a table another caller has
replaced, its ack, none, and the end at counter 2. -/
theorem witness_NegotiationSteps :
    (PortIdle State.reset ∧ State.reset.node.state ≠ .running)
      ∧ (PortIdle (session State.reset) ∧ (session State.reset).node.state = .running ∧ Writable (session State.reset) 0
        ∧ Unwritable (State.reset.withNode node) ∧ PortIdle (State.reset.withNode node))
      ∧ (let m : Entry := { opcode := 0x54, payload := [4, 0, 0, 0, 0], kind := .capabilities }
        let s := holding [] [m] (busy .nodeCaps .waitMsg none 0)
        InPhase s .nodeCaps .waitMsg ∧ FirstIn (fun x => x.kind = .capabilities) s.pump.msgQ [] m [])
      ∧ InPhase (busy .nodeStart .waitMsg none 0) .nodeStart .waitMsg
      ∧ (let s := (busy .nodeCaps .negKeys none 1).withNode node
        InPhase s .nodeCaps .negKeys ∧ CounterIs s 1 ∧ s.node.maxNetworks = some 2 ∧ 1 ≠ (2 : Byte).toNat
          ∧ s.node.nets[1]? = some (NetSlot.fresh 1) ∧ Writable (linked s) 0 ∧ Unwritable s)
      ∧ (let s := (busy .nodeCaps .negKeys none 1).withNode { Node.reset with maxNetworks := some 0 }
        InPhase s .nodeCaps .negKeys ∧ CounterIs s 1 ∧ s.node.maxNetworks = some 0 ∧ 1 ≠ (0 : Byte).toNat
          ∧ s.node.nets.length ≤ 1)
      ∧ (let s := (holding [event [1, 0x46, 0]] [] (busy .nodeStart .waitAck none 1)).withNode node
        InPhase s .nodeStart .waitAck ∧ CounterIs s 1
          ∧ FirstIn (IsAckOf 0x46) s.pump.ackQ [] (event [1, 0x46, 0]) []
          ∧ (event [1, 0x46, 0]).payload.getD 2 0 = s.cfg.responseNoError
          ∧ (event [1, 0x46, 0x15]).payload.getD 2 0 ≠ s.cfg.responseNoError)
      ∧ (let s := busy .nodeCaps .waitAck none 1
        InPhase s .nodeCaps .waitAck ∧ ∀ e ∈ s.pump.ackQ, ¬ IsAckOf 0x46 e)
      ∧ (let s := (busy .nodeStart .negKeys none 2).withNode node
        InPhase s .nodeStart .negKeys ∧ CounterIs s (2 : Byte).toNat ∧ s.node.maxNetworks = some 2
          ∧ s.node.maxChannels = some 3) := by
  refine ⟨by decide, by decide, ⟨by decide, rfl, by simp, rfl⟩, by decide, by decide, by decide,
    ⟨by decide, by decide, ?_, by decide, by decide⟩, ⟨by decide, by simp [busy, State.withSeqs, State.reset, State.resetWith, Pump.reset]⟩,
    by decide⟩
  exact ⟨rfl, by simp, by unfold IsAckOf; decide⟩

theorem witness_SetKeySteps :
    (PortIdle (session State.reset) ∧ (session State.reset).node.nets.length ≤ 2)
      ∧ (1 < (session State.reset).node.nets.length ∧ ([] : Bytes).length ≠ 8)
      ∧ (session State.reset).node.nets[1]? = some (NetSlot.fresh 1) ∧ Writable (session State.reset) 0 ∧ key.length = 8
      ∧ (let s := (holding [event [1, 0x46, 0]] [] (busy (.nodeSetkey 1 none) .waitAck none 0)).withNode node
        InPhase s (.nodeSetkey 1 none) .waitAck ∧ FirstIn (IsAckOf 0x46) s.pump.ackQ [] (event [1, 0x46, 0]) [])
      ∧ InPhase (busy (.nodeSetkey 1 none) .waitAck none 0) (.nodeSetkey 1 none) .waitAck
      ∧ (PortIdle (State.reset.withNode node) ∧ (State.reset.withNode node).node.nets[1]? = some (NetSlot.fresh 1)
        ∧ Unwritable (State.reset.withNode node)) := by
  refine ⟨by decide, by decide, by decide, by decide, by decide, ⟨by decide, ?_⟩, by decide, by decide⟩
  exact ⟨rfl, by simp, by unfold IsAckOf; decide⟩

theorem witness_SlotLookups :
    PortIdle (session State.reset) ∧ chanState (session State.reset) 0 = some .free
      ∧ (∀ c ∈ State.reset.node.chans, c.state ≠ .free)
      ∧ ((session State.reset).node.nets[0]?).map (fun k => k.name) = some (.text netName)
      ∧ ∀ k ∈ (session State.reset).node.nets, k.name ≠ .text [0x78] := by decide

/-- An operand at its maximum, on the slot the command requires. -/
theorem witness_ChannelCommandIsWritten :
    (chanRow 0 (.chSetper 1 65535)).isSome = true ∧ PortIdle (session State.reset)
      ∧ NamedAt (session State.reset) 0 (.chAssign 0 netName 255)
      ∧ chanState (session State.reset) 1 = some .assigned ∧ chanState (session State.reset) 0 = some .free
      ∧ chanState (session State.reset) 2 = some .opened
      ∧ (∀ r ∈ chanRow 0 (.chSetper 1 65535), r.InRange) ∧ (∀ r ∈ chanRow 0 (.chAssign 0 netName 255), r.InRange)
      ∧ Writable (session State.reset) 0 :=
  ⟨by decide, by decide, ⟨by decide, by simp⟩, by decide, by decide, by decide, by decide, by decide, by decide⟩

/-- A slot that is missing, an operand one above its maximum, a name of no slot, a slot in another state, a closed transport. -/
theorem witness_ChannelChecksInOrder :
    PortIdle (session State.reset) ∧ (session State.reset).node.chans.length ≤ 3
      ∧ (∀ r ∈ chanRow 0 (.chSetto 1 256), 1 < (session State.reset).node.chans.length
        ∧ r.ranges = [] ++ (.v, 256, 255) :: [])
      ∧ (∀ k ∈ (session State.reset).node.nets, k.name ≠ .text [0x78])
      ∧ NamedAt (session State.reset) 0 (.chOpen 0) ∧ chanState (session State.reset) 0 ≠ some .assigned
      ∧ chanState (session State.reset) 1 = some .assigned
      ∧ Unwritable ((session State.reset).withEnv Env.reset) ∧ PortIdle ((session State.reset).withEnv Env.reset) :=
  ⟨by decide, by decide, by decide, by decide, trivial, by decide, by decide, by decide, by decide⟩

theorem witness_ChannelAckIsTaken :
    let s := (holding [event [1, 0x4B, 0]] [] (busy (.chOpen 1) .waitAck (some 1) 0)).withNode node
    let u := (holding [event [2, 0x4C, 0]] [] (busy (.chClose 2) .waitAck (some 2) 0)).withNode node
    (InPhase s (.chOpen 1) .waitAck ∧ ChannelIs s 1 ∧ FirstIn (IsAckOf (0x4B : Byte).toNat) s.pump.ackQ [] (event [1, 0x4B, 0]) []
        ∧ (event [1, 0x4B, 0]).payload.getD 2 0 = s.cfg.responseNoError
        ∧ (event [1, 0x4B, 0x15]).payload.getD 2 0 ≠ s.cfg.responseNoError)
      ∧ (InPhase u (.chClose 2) .waitAck ∧ ChannelIs u 2
        ∧ FirstIn (IsAckOf (0x4C : Byte).toNat) u.pump.ackQ [] (event [2, 0x4C, 0]) [])
      ∧ InPhase (busy (.chOpen 1) .waitAck (some 1) 0) (.chOpen 1) .waitAck
      ∧ ChannelIs (busy (.chOpen 1) .waitAck (some 1) 0) 1 := by
  refine ⟨⟨by decide, by decide, ?_, by decide, by decide⟩, ⟨by decide, by decide, ?_⟩, by decide, by decide⟩
  · exact ⟨rfl, by simp, by unfold IsAckOf; decide⟩
  · exact ⟨rfl, by simp, by unfold IsAckOf; decide⟩

/-- The closed event of V20, the copy of the ack that is dropped, and no event at all. -/
theorem witness_CloseWaitsForTheClosedEvent :
    let s := (holding [] [event [2, 1, 7]] (busy (.chClose 2) .waitClosed (some 2) 0)).withNode node
    InPhase s (.chClose 2) .waitClosed ∧ ChannelIs s 2
      ∧ FirstIn (fun x => x.kind = .channelEvent) s.pump.msgQ [] (event [2, 1, 7]) []
      ∧ (3 ≤ (event [2, 1, 7]).payload.length ∧ (event [2, 1, 7]).payload.getD 2 0 = s.cfg.eventChannelClosed)
      ∧ ¬ (3 ≤ (event [2, 1]).payload.length)
      ∧ InPhase (busy (.chClose 2) .waitClosed (some 2) 0) (.chClose 2) .waitClosed :=
  ⟨by decide, by decide, ⟨rfl, by simp, rfl⟩, by decide, by decide, by decide⟩

theorem witness_CallbackRegistration :
    PortIdle (session State.reset) ∧ (session State.reset).node.chans.length ≤ 3
      ∧ 2 < (session State.reset).node.chans.length := by decide

end Sys2Proof.Tests
end

section
/-! PROOFS for 10_state.md. Properties that each single write of the model keeps: the parameters (O24), the pump flags (O21), the
messages and queues (O20), the slot tables and the registry (O22). Each goes through `KeptByStep`: the writes that touch the
property are treated by name, the others leave it as it is. -/

namespace Sys2Proof.Machine

/-! ## The parameters -/

/-- Every write of an instruction leaves the parameters as they are. -/
theorem cfg_kept (c : Config) (i : Instr) : Kept i (fun s => s.cfg = c) := by
  constructor
  all_goals intros; assumption

/-- Every write of a step leaves the parameters as they are. -/
theorem cfg_keptByStep (c : Config) : KeptByStep (fun s => s.cfg = c) := by
  constructor
  case instr => exact cfg_kept c
  all_goals intros; assumption

/-- Settles O24: no write of the model is a write of `cfg`. -/
theorem stepKeepsTheParameters : Obligations.StepKeepsTheParameters :=
  fun s _ h => (cfg_keptByStep s.cfg).step rfl h

/-! ## The pump flags -/

/-- A worker that can begin has been started and is not faulted. -/
theorem Pump.canBegin_iff (p : Pump) :
    p.canBegin = true ↔ p.running = true ∧ p.alive = false ∧ p.stopReq = false ∧ p.faulted = false := by
  simp [Pump.canBegin, and_assoc]

/-- A working worker is alive and not faulted. -/
theorem Pump.working_iff (p : Pump) : p.working = true ↔ p.alive = true ∧ p.faulted = false := by
  simp [Pump.working]

/-- All four flags are false at reset. -/
theorem flagsSound_reset : Pump.reset.FlagsSound := by decide

/-- A start raises `running`, and no caller's write touches `alive` or `faulted`; a stop is signalled to a running pump and confirmed
for a worker that is not alive. -/
theorem flagsSound_kept (i : Instr) : Kept i (fun s => s.pump.FlagsSound) := by
  constructor
  case spawn =>
    rintro s - ⟨hfault, -, -⟩
    exact ⟨hfault, fun _ => rfl, fun _ => rfl⟩
  case signalStop =>
    rintro s hrun ⟨hfault, halive, -⟩
    exact ⟨hfault, halive, fun _ => hrun⟩
  case confirmStop =>
    rintro s hdown ⟨hfault, -, -⟩
    exact ⟨hfault, fun h => absurd (hdown.symm.trans h) Bool.false_ne_true, fun h => absurd h Bool.false_ne_true⟩
  all_goals intros; assumption

/-- Begin needs a started worker, exit one that has not faulted, and only a living worker faults. -/
theorem flagsSound_keptByStep : KeptByStep (fun s => s.pump.FlagsSound) := by
  constructor
  case instr => exact flagsSound_kept
  case reset => intros; exact flagsSound_reset
  case start =>
    rintro s hb ⟨-, -, hstop⟩
    obtain ⟨hrun, -, -, -⟩ := s.pump.canBegin_iff.1 hb
    exact ⟨fun _ => rfl, fun _ => hrun, hstop⟩
  case exit =>
    rintro s hw ⟨-, -, hstop⟩
    obtain ⟨-, hok⟩ := s.pump.working_iff.1 hw
    exact ⟨fun h => absurd (hok.symm.trans h) Bool.false_ne_true, fun h => absurd h Bool.false_ne_true, hstop⟩
  case fail =>
    rintro s hw ⟨-, halive, hstop⟩
    exact ⟨fun _ => (s.pump.working_iff.1 hw).1, halive, hstop⟩
  all_goals intros; assumption

/-- Settles O21, write by write. -/
theorem stepKeepsPumpFlagsSound : Obligations.StepKeepsPumpFlagsSound :=
  fun _ _ hs h => flagsSound_keptByStep.step hs h

/-! ## Messages and queues -/

/-- Taking the entry between `a` and `b` out of a queue leaves no more entries, each of them an old one. -/
theorem taken_of_queue {a b q : List Entry} {e : Entry} {P : Entry → Prop} (hq : q = a ++ e :: b)
    (hlen : q.length ≤ queueCap) (hall : ∀ x ∈ q, P x) : (a ++ b).length ≤ queueCap ∧ ∀ x ∈ a ++ b, P x := by
  subst hq
  have hsub : (a ++ b).Sublist (a ++ e :: b) := (List.sublist_cons_self e b).append_left a
  exact ⟨hsub.length_le.trans hlen, fun x hx => hall x (hsub.subset hx)⟩

/-- An insertion of an entry with `P` into a queue of entries with `P`. -/
theorem qInsert_forall {q : List Entry} {m : Entry} {P : Entry → Prop} (hm : P m) (hall : ∀ x ∈ q, P x) :
    ∀ x ∈ qInsert q m, P x := by
  intro x hx
  rcases mem_qInsert hx with rfl | hx
  · exact hm
  · exact hall x hx

/-- A frame put into dispatch is a sound entry if its payload fits. -/
theorem Entry.ofFrame_sound (cfg : Config) (k : Kind) {pay : Bytes} (h : pay.length ≤ maxPayload) :
    (Entry.ofFrame cfg k pay).Sound cfg := ⟨h, rfl⟩

/-- What is left to deliver of a message is that message or none. -/
theorem mem_message?_dispatchRest {m x : Entry} {ts : List Target} (h : x ∈ (dispatchRest m ts).message?) : x = m := by
  unfold dispatchRest at h
  split at h
  · cases h
  · cases h; rfl

/-- Both queues are empty at reset and no message is in dispatch. -/
theorem queuesSound_reset (cfg : Config) : Pump.reset.QueuesSound cfg := by
  simp [Pump.QueuesSound, Pump.reset, PumpPhase.message?]

/-- A caller writes `MR` within the bound and only takes entries out of the queues. -/
theorem messagesSound_kept (i : Instr) : Kept i State.MessagesSound := by
  constructor
  case mr =>
    rintro - s m hm ⟨hmr, hq⟩
    exact ⟨hm.trans (max_le le_rfl hmr), hq⟩
  case ackQ =>
    rintro s a e b hab ⟨hmr, hla, hlm, hack, hmsg, hit⟩
    obtain ⟨hla', hack'⟩ := taken_of_queue hab hla hack
    exact ⟨hmr, hla', hlm, hack', hmsg, hit⟩
  case msgQ =>
    rintro s a e b hab ⟨hmr, hla, hlm, hack, hmsg, hit⟩
    obtain ⟨hlm', hmsg'⟩ := taken_of_queue hab hlm hmsg
    exact ⟨hmr, hla, hlm', hack, hmsg', hit⟩
  all_goals intros; assumption

/-- The pump agent puts sound messages into dispatch and queues the message in dispatch. -/
theorem messagesSound_keptByStep : KeptByStep State.MessagesSound := by
  constructor
  case instr => exact messagesSound_kept
  case reset => intro s _; exact ⟨Nat.zero_le _, queuesSound_reset s.cfg⟩
  case start | receive | rescan =>
    intros
    rename_i hs
    obtain ⟨hmr, hla, hlm, hack, hmsg, -⟩ := hs
    exact ⟨hmr, hla, hlm, hack, hmsg, fun _ h => nomatch h⟩
  case dispatch =>
    rintro s buf k pay - hpay ⟨hmr, hla, hlm, hack, hmsg, -⟩
    refine ⟨hmr, hla, hlm, hack, hmsg, fun m hm => ?_⟩
    cases hm
    exact Entry.ofFrame_sound _ k hpay
  case ackInsert =>
    rintro s m t ts - hit hk ⟨hmr, hla, hlm, hack, hmsg, hsound⟩
    have hm : m.Sound s.cfg := hsound m (by rw [hit]; rfl)
    exact ⟨hmr, qInsert_length _ _, hlm, qInsert_forall ⟨hm, hk⟩ hack, hmsg, hsound⟩
  case msgInsert =>
    rintro s m t ts - hit ⟨hmr, hla, hlm, hack, hmsg, hsound⟩
    have hm : m.Sound s.cfg := hsound m (by rw [hit]; rfl)
    exact ⟨hmr, hla, qInsert_length _ _, hack, qInsert_forall hm hmsg, hsound⟩
  case deliver =>
    rintro s m t ts ts' - hit ⟨hmr, hla, hlm, hack, hmsg, hsound⟩
    refine ⟨hmr, hla, hlm, hack, hmsg, fun x hx => ?_⟩
    rw [mem_message?_dispatchRest hx]
    exact hsound m (by rw [hit]; rfl)
  all_goals intros; assumption

/-- Settles O20, write by write. -/
theorem stepKeepsMessagesSound : Obligations.StepKeepsMessagesSound :=
  fun _ _ hs h => messagesSound_keptByStep.step hs h

/-! ## Lists of slots -/

/-- Changing one element keeps a property of all elements that the change keeps. -/
theorem forall_mem_modify {α : Type} {p : α → Prop} {f : α → α} (hf : ∀ x, p x → p (f x)) {l : List α}
    (h : ∀ x ∈ l, p x) (n : Nat) : ∀ x ∈ l.modify n f, p x := by
  intro x hx
  obtain ⟨j, hj⟩ := List.mem_iff_getElem?.1 hx
  rw [List.getElem?_modify, Option.map_eq_map, Option.map_eq_some_iff] at hj
  obtain ⟨y, hy, rfl⟩ := hj
  have hp : p y := h y (List.mem_of_getElem? hy)
  split
  · exact hf y hp
  · exact hp

/-- The indices of a table count up from 0 exactly if each slot is at its index. -/
theorem indexed_iff {α : Type} (idx : α → Byte) (l : List α) :
    l.map idx = (List.range l.length).map (BitVec.ofNat 8) ↔ ∀ j x, l[j]? = some x → idx x = BitVec.ofNat 8 j := by
  have hrange (j : Nat) (hj : j < l.length) : ((List.range l.length).map (BitVec.ofNat 8))[j]? = some (BitVec.ofNat 8 j) := by
    rw [List.getElem?_map, List.getElem?_range hj, Option.map_some]
  constructor
  · intro h j x hj
    have hlt : j < l.length := (List.getElem?_eq_some_iff.1 hj).1
    have hat : (l.map idx)[j]? = some (BitVec.ofNat 8 j) := h ▸ hrange j hlt
    rw [List.getElem?_map, hj] at hat
    exact Option.some.inj hat
  · intro h
    refine List.ext_getElem? fun j => ?_
    cases hj : l[j]? with
    | none =>
      have hle : l.length ≤ j := List.getElem?_eq_none_iff.1 hj
      simp [hle]
    | some x =>
      have hlt : j < l.length := (List.getElem?_eq_some_iff.1 hj).1
      rw [List.getElem?_map, hj, hrange j hlt, Option.map_some, h j x hj]

/-- A change of slot `n` that leaves its index, or sets it to `n`, keeps every slot at its index. -/
theorem indexed_modify {α : Type} {idx : α → Byte} {l : List α} {f : α → α} {n : Nat}
    (hf : ∀ x, idx (f x) = idx x ∨ idx (f x) = BitVec.ofNat 8 n)
    (h : l.map idx = (List.range l.length).map (BitVec.ofNat 8)) :
    (l.modify n f).map idx = (List.range (l.modify n f).length).map (BitVec.ofNat 8) := by
  rw [indexed_iff] at h ⊢
  intro j x hj
  rw [List.getElem?_modify, Option.map_eq_map, Option.map_eq_some_iff] at hj
  obtain ⟨y, hy, rfl⟩ := hj
  have hidx : idx y = BitVec.ofNat 8 j := h j y hy
  split
  · next hn =>
    rcases hf y with h | h
    · rw [h, hidx]
    · rw [h, hn]
  · exact hidx

/-- A table made slot by slot from 0 has each slot at its index. -/
theorem indexed_fresh {α : Type} {idx : α → Byte} {mk : Nat → α} (h : ∀ j, idx (mk j) = BitVec.ofNat 8 j) (n : Nat) :
    ((List.range n).map mk).map idx = (List.range ((List.range n).map mk).length).map (BitVec.ofNat 8) := by
  simp [Function.comp_def, h]

/-! ## Network slots -/

/-- A change of one network slot that keeps an 8-byte key and the slot at its index. -/
theorem netsSound_modify {n : Node} {j : Nat} {f : NetSlot → NetSlot}
    (hidx : ∀ k, (f k).index = k.index ∨ (f k).index = BitVec.ofNat 8 j)
    (hkey : ∀ k : NetSlot, k.key.length = 8 → (f k).key.length = 8) (h : n.NetsSound) :
    Node.NetsSound { n with nets := n.nets.modify j f } := by
  obtain ⟨hlen, hindex, hkeys⟩ := h
  exact ⟨(List.length_modify _ _ _).trans hlen, indexed_modify hidx hindex, forall_mem_modify hkey hkeys j⟩

/-- The network table made for a reply is sound. -/
theorem netsSound_fresh (n : Node) (c m : Byte) :
    Node.NetsSound
      { n with maxChannels := some c, maxNetworks := some m, nets := (List.range m.toNat).map NetSlot.fresh } := by
  refine ⟨by simp, indexed_fresh (mk := NetSlot.fresh) (fun _ => rfl) _, fun k hk => ?_⟩
  obtain ⟨j, -, rfl⟩ := List.mem_map.1 hk
  rfl

/-! ## Channel slots -/

/-- A change of one channel slot that leaves its index and generation and keeps its callbacks distinct. -/
theorem chansSound_modify {n : Node} {j : Nat} {f : ChanSlot → ChanSlot} (hidx : ∀ c, (f c).index = c.index)
    (hgen : ∀ c, (f c).gen = c.gen) (hcbs : ∀ c : ChanSlot, c.cbs.Nodup → (f c).cbs.Nodup) (h : n.ChansSound) :
    Node.ChansSound { n with chans := n.chans.modify j f } := by
  obtain ⟨hlen, hindex, hcur, hold, hnodup⟩ := h
  obtain ⟨hnew, hearlier⟩ := List.forall_mem_append.1 hnodup
  refine ⟨(List.length_modify _ _ _).trans_le hlen, indexed_modify (fun c => .inl (hidx c)) hindex,
    forall_mem_modify (fun c h => (hgen c).trans h) hcur j, hold, List.forall_mem_append.2 ⟨?_, hearlier⟩⟩
  exact forall_mem_modify hcbs hnew j

/-- A new generation of at most 255 channel slots over the old ones. -/
theorem chansSound_allocate {count : Nat} (hc : count ≤ 255) {s : State} (h : s.node.ChansSound) :
    (allocateChannels count s).node.ChansSound := by
  obtain ⟨-, -, hcur, hold, hnodup⟩ := h
  obtain ⟨hnew, hearlier⟩ := List.forall_mem_append.1 hnodup
  have fresh {p : ChanSlot → Prop} (hp : ∀ j, p (.fresh (s.node.gen + 1) j)) :
      ∀ c ∈ (List.range count).map (ChanSlot.fresh (s.node.gen + 1)), p c := by
    intro c h
    obtain ⟨j, -, rfl⟩ := List.mem_map.1 h
    exact hp j
  refine ⟨by simpa [allocateChannels] using hc, indexed_fresh (mk := ChanSlot.fresh _) (fun _ => rfl) _,
    fresh fun _ => rfl, ?_, ?_⟩
  · refine List.forall_mem_append.2 ⟨fun c h => Nat.lt_succ_of_lt (hold c h), fun c h => ?_⟩
    exact Nat.lt_succ_of_le (hcur c h).le
  · exact List.forall_mem_append.2 ⟨fresh fun _ => List.nodup_nil, List.forall_mem_append.2 ⟨hearlier, hnew⟩⟩

/-- A slot of sound tables is of a generation that has been. -/
theorem gen_le_of_slot? {n : Node} (h : n.ChansSound) {g i : Nat} (hs : (n.slot? g i).isSome = true) : g ≤ n.gen := by
  obtain ⟨-, -, hcur, hold, -⟩ := h
  obtain ⟨c, hc⟩ := Option.isSome_iff_exists.1 hs
  have hg : c.gen = g := by
    have := List.find?_some hc
    exact (of_decide_eq_true this).1
  rcases List.mem_append.1 (List.mem_of_find?_eq_some hc) with hmem | hmem
  · exact hg ▸ (hcur c hmem).le
  · exact hg ▸ (hold c hmem).le

/-- The callback list with one more callback. -/
theorem nodup_addCb {cbs : List Nat} (cb : Nat) (h : cbs.Nodup) :
    (if cbs.contains cb then cbs else cbs ++ [cb]).Nodup := by
  split
  · exact h
  · next hc =>
    have hnot : cb ∉ cbs := by simpa using hc
    exact List.nodup_append.2 ⟨h, List.nodup_singleton cb, by simpa using fun a ha (he : a = cb) => hnot (he ▸ ha)⟩

/-! ## The registry -/

/-- The registry beside a count of generations: `State.RegistrySound` of the two parts it speaks of. -/
def RegSound (reg : List ListenerId) (gen : Nat) : Prop :=
  reg.Nodup ∧ reg.take 2 = [.ackCollector, .msgCollector] ∧ ∀ l ∈ reg, ∀ g ∈ l.gen?, g ≤ gen

theorem registrySound_iff (s : State) : s.RegistrySound ↔ RegSound s.pump.reg s.node.gen := Iff.rfl

/-- A registry that begins with the two collectors. -/
theorem take_two_eq {reg : List ListenerId} (h : reg.take 2 = [.ackCollector, .msgCollector]) :
    ∃ rest, reg = .ackCollector :: .msgCollector :: rest := by
  obtain ⟨rest, hrest⟩ : ∃ rest, reg = reg.take 2 ++ rest := ⟨reg.drop 2, (List.take_append_drop 2 reg).symm⟩
  exact ⟨rest, by rw [hrest, h]; rfl⟩

/-- New listeners of generations up to `gen` are added at the end. -/
theorem RegSound.append {reg new : List ListenerId} {gen gen' : Nat} (h : RegSound reg gen) (hg : gen ≤ gen')
    (hnew : new.Nodup) (hdisj : ∀ l ∈ new, l ∉ reg) (hgen : ∀ l ∈ new, ∀ g ∈ l.gen?, g ≤ gen') :
    RegSound (reg ++ new) gen' := by
  obtain ⟨hnodup, htake, hold⟩ := h
  refine ⟨List.nodup_append.2 ⟨hnodup, hnew, ?_⟩, ?_, ?_⟩
  · rintro a ha b hb rfl
    exact hdisj a hb ha
  · obtain ⟨rest, rfl⟩ := take_two_eq htake
    rfl
  · exact List.forall_mem_append.2 ⟨fun l hl g h => (hold l hl g h).trans hg, hgen⟩

/-- A listener that names no generation to come is registered. -/
theorem RegSound.register {reg : List ListenerId} {gen : Nat} (h : RegSound reg gen) {l : ListenerId}
    (hl : ∀ g ∈ l.gen?, g ≤ gen) : RegSound (register l reg) gen := by
  unfold Machine.register
  split
  · exact h
  · next hc => exact h.append le_rfl (List.nodup_singleton l) (by simpa using hc) (by simpa using hl)

/-- Taking out a listener that is no collector. -/
theorem RegSound.filter_ne {reg : List ListenerId} {gen : Nat} (h : RegSound reg gen) {l : ListenerId}
    (ha : l ≠ .ackCollector) (hm : l ≠ .msgCollector) : RegSound (reg.filter fun x => decide (x ≠ l)) gen := by
  obtain ⟨hnodup, htake, hgen⟩ := h
  refine ⟨hnodup.filter _, ?_, fun x hx => hgen x (List.mem_filter.1 hx).1⟩
  obtain ⟨rest, rfl⟩ := take_two_eq htake
  simp [ha.symm, hm.symm]

theorem RegSound.unregister {reg : List ListenerId} {gen : Nat} (h : RegSound reg gen) (l : ListenerId) :
    RegSound (unregister l reg) gen := by
  cases l with
  | ackCollector | msgCollector => exact h
  | channelL g i => exact h.filter_ne (by simp) (by simp)
  | external n => exact h.filter_ne (by simp) (by simp)

/-- The channel listeners of the next generation are registered. -/
theorem RegSound.allocate {reg : List ListenerId} {gen : Nat} (h : RegSound reg gen) (count : Nat) :
    RegSound (reg ++ (List.range count).map (ListenerId.channelL (gen + 1))) (gen + 1) := by
  obtain ⟨-, -, hgen⟩ := id h
  refine h.append (Nat.le_succ gen) ?_ ?_ ?_
  · exact List.nodup_range.map fun _ _ h => by cases h; rfl
  · intro l hl hreg
    obtain ⟨j, -, rfl⟩ := List.mem_map.1 hl
    exact Nat.not_succ_le_self gen (hgen _ hreg _ rfl)
  · intro l hl g hg
    obtain ⟨j, -, rfl⟩ := List.mem_map.1 hl
    cases hg
    exact le_rfl

/-- A listener that names a slot, or none, names no generation to come. -/
theorem gen_le_of_names {n : Node} (h : n.ChansSound) {l : ListenerId} (hl : n.names l = true) :
    ∀ g ∈ l.gen?, g ≤ n.gen := by
  intro g hg
  cases l with
  | channelL g' i => cases hg; exact gen_le_of_slot? h hl
  | ackCollector | msgCollector | external n => cases hg

/-! ## The tables -/

/-- At reset the tables are empty and the registry holds the two collectors. -/
theorem netsSound_reset : Node.reset.NetsSound := by simp [Node.NetsSound, Node.reset]
theorem chansSound_reset : Node.reset.ChansSound := by simp [Node.ChansSound, Node.reset]
theorem regSound_reset : RegSound Pump.reset.reg Node.reset.gen := by simp [RegSound, Pump.reset, ListenerId.gen?]

/-- Channel slots are written at their index and of the current generation, network slots with 8-byte keys, and listeners name
slots that are or have been. -/
theorem tablesSound_kept (i : Instr) : Kept i State.TablesSound := by
  constructor
  case reg =>
    rintro l - s hl ⟨hnets, hchans, hreg⟩
    exact ⟨hnets, hchans, RegSound.register hreg (gen_le_of_names hchans hl)⟩
  case unreg =>
    rintro l - s ⟨hnets, hchans, hreg⟩
    exact ⟨hnets, hchans, RegSound.unregister hreg l⟩
  case limits =>
    rintro - s c n ⟨-, hchans, hreg⟩
    exact ⟨netsSound_fresh _ c n, hchans, hreg⟩
  case allocate =>
    rintro - s c - ⟨hnets, hchans, hreg⟩
    exact ⟨hnets, chansSound_allocate (Nat.le_of_lt_succ c.isLt) hchans, RegSound.allocate hreg _⟩
  case setKey =>
    rintro idx name key - hkey s ⟨hnets, hchans, hreg⟩
    exact ⟨netsSound_modify (fun _ => .inl rfl) (fun _ _ => hkey) hnets, hchans, hreg⟩
  case stamp =>
    rintro - s idx ⟨hnets, hchans, hreg⟩
    exact ⟨netsSound_modify (fun _ => .inr rfl) (fun _ h => h) hnets, hchans, hreg⟩
  case chanState =>
    rintro st - s ch ⟨hnets, hchans, hreg⟩
    exact ⟨hnets, chansSound_modify (fun _ => rfl) (fun _ => rfl) (fun _ h => h) hchans, hreg⟩
  case addCb =>
    rintro ch cb - s ⟨hnets, hchans, hreg⟩
    exact ⟨hnets, chansSound_modify (fun _ => rfl) (fun _ => rfl) (fun _ h => nodup_addCb cb h) hchans, hreg⟩
  case dropCb =>
    rintro ch cb - s ⟨hnets, hchans, hreg⟩
    exact ⟨hnets, chansSound_modify (fun _ => rfl) (fun _ => rfl) (fun _ h => h.filter _) hchans, hreg⟩
  all_goals intros; assumption

/-- The pump agent writes neither table nor registry, and both are sound after block reset. -/
theorem tablesSound_keptByStep : KeptByStep State.TablesSound := by
  constructor
  case instr => exact tablesSound_kept
  case reset => intros; exact ⟨netsSound_reset, chansSound_reset, regSound_reset⟩
  all_goals intros; assumption

/-- Settles O22, write by write. -/
theorem stepKeepsTablesSound : Obligations.StepKeepsTablesSound :=
  fun _ _ hs h => tablesSound_keptByStep.step hs h

end Sys2Proof.Machine
end

section
/-! PROOFS for 10_state.md. The sequencer in turn: what an operation can do to it and when the port answers (O33), and that
sequencers stay sound (O23). `exec_turn` says once, for every operation, how a turn on a port ends. -/

namespace Sys2Proof.Machine

/-! ## A turn on a port -/

/-- State `t` has been reached from `s` in a turn on the port of `s`; the sequencer in turn is now `q`, the others are as in `s`. -/
structure InTurn (s t : State) (q : Seq) : Prop where
  turn : t.turn = s.turn
  count : t.seqs.length = s.seqs.length
  others : ∀ k, k ≠ s.turn.port → t.seqs[k]? = s.seqs[k]?
  mine : t.seqs[s.turn.port]? = some q

/-- A turn in which no response has been given yet. -/
structure Quiet (s t : State) (q : Seq) : Prop extends InTurn s t q where
  responses : t.env.responses = s.env.responses

/-- A turn in which one response has been given, on the port in turn. -/
structure Answered (s t : State) (q : Seq) (r : Response) : Prop extends InTurn s t q where
  responses : t.env.responses = s.env.responses ++ [(s.turn.port, r)]

/-- Where a turn begins. -/
theorem Quiet.refl {s : State} {q : Seq} (h : s.seqs[s.turn.port]? = some q) : Quiet s s q :=
  ⟨⟨rfl, rfl, fun _ _ => rfl, h⟩, rfl⟩

section
variable {s t : State} {q : Seq}

theorem InTurn.modifySeq (h : InTurn s t q) (f : Seq → Seq) : InTurn s (t.modifySeq f) (f q) where
  turn := h.turn
  count := by rw [State.modifySeq_seqs, List.length_modify]; exact h.count
  others k hk := by
    rw [State.modifySeq_seqs, h.turn, List.getElem?_modify, h.others k hk]
    simp [Ne.symm hk]
  mine := by simp [h.turn, h.mine]

/-- A write of another part of the state. -/
theorem Quiet.congr (h : Quiet s t q) {u : State} (hturn : u.turn = t.turn) (hseqs : u.seqs = t.seqs)
    (hresp : u.env.responses = t.env.responses) : Quiet s u q where
  turn := hturn.trans h.turn
  count := by rw [hseqs]; exact h.count
  others := by rw [hseqs]; exact h.others
  mine := by rw [hseqs]; exact h.mine
  responses := hresp.trans h.responses

theorem Quiet.modifySeq (h : Quiet s t q) (f : Seq → Seq) : Quiet s (t.modifySeq f) (f q) :=
  ⟨h.toInTurn.modifySeq f, h.responses⟩
theorem Quiet.withMr (h : Quiet s t q) (m : MR) : Quiet s (t.withMr m) q := h.congr rfl rfl rfl
theorem Quiet.withPump (h : Quiet s t q) (p : Pump) : Quiet s (t.withPump p) q := h.congr rfl rfl rfl
theorem Quiet.withNode (h : Quiet s t q) (n : Node) : Quiet s (t.withNode n) q := h.congr rfl rfl rfl
theorem Quiet.withEnv (h : Quiet s t q) (e : Env) (he : e.responses = t.env.responses := by rfl) :
    Quiet s (t.withEnv e) q :=
  h.congr rfl rfl he

/-- The sequencer the state reads is the one in turn. -/
theorem Quiet.seq (h : Quiet s t q) : t.seq = q := State.seq_of_getElem? (h.turn ▸ h.mine)

theorem Quiet.respond (h : Quiet s t q) (r : Response) : Answered s (t.respond r) q.toIdle r where
  toInTurn :=
    have m := h.toInTurn.modifySeq Seq.toIdle
    ⟨m.turn, m.count, m.others, m.mine⟩
  responses := by rw [State.respond_env, h.responses, h.turn]

end

/-! ## What an operation does to its sequencer -/

/-- What operation `i` can do to its sequencer without an answer, beside a network table of `n` slots: stay where it is, wait in a
phase, wait for an ack (a negotiation only of a slot it has), take the capabilities reply, or take a key's ack (10_state.md R44, R45,
43_node.md R255). -/
inductive SeqMove (i : Instr) (n : Nat) (q : Seq) : Seq → Prop
  | stay (h : q.phase ≠ .idle) : SeqMove i n q q
  | phase (p : Phase) (hp : p ≠ .idle) (ha : p ≠ .waitAck) : SeqMove i n q { q with phase := p }
  | waitAck (req : Option Message) (ch : Option Nat) (h : i.negotiates = true → q.i < n) :
      SeqMove i n q { q with req := req, ch := ch, phase := .waitAck }
  | reply (bs : Bytes) : SeqMove i n q { q with i := 0, phase := .negKeys, reply := bs }
  | keyAcked (hn : i.negotiates = true) (hp : q.phase = .waitAck) :
      SeqMove i n q { q with i := q.i + 1, phase := .negKeys }

/-- How a turn of operation `i` that found `q` ends: the port answers and the sequencer is `Idle` again, or the operation goes on. -/
inductive TurnEnds (i : Instr) (s : State) (q : Seq) (t : State) : Prop
  | answered (r : Response) (h : Answered s t q.toIdle r)
  | goesOn (q' : Seq) (h : Quiet s t q') (hm : SeqMove i t.node.nets.length q q')

theorem SeqMove.phase_ne_idle {i : Instr} {n : Nat} {q q' : Seq} (h : SeqMove i n q q') : q'.phase ≠ .idle := by
  cases h with
  | stay h => exact h
  | phase p hp _ => exact hp
  | waitAck | reply | keyAcked => exact Phase.noConfusion

/-! ## The shared operations end a turn -/

section
variable {i : Instr} {s u : State} {q : Seq} (h : Quiet s u q)
include h

theorem Quiet.ends_respond (r : Response) : TurnEnds i s q (u.respond r) := .answered r (h.respond r)
theorem Quiet.ends_ok (r : Result) : TurnEnds i s q (u.ok r) := h.ends_respond _
theorem Quiet.ends_raise (e : Err) : TurnEnds i s q (u.raise e) := h.ends_respond _
theorem Quiet.ends_hold (hp : q.phase ≠ .idle) : TurnEnds i s q u := .goesOn q h (.stay hp)
theorem Quiet.ends_setPhase (p : Phase) (hp : p ≠ .idle := by simp) (ha : p ≠ .waitAck := by simp) :
    TurnEnds i s q (u.setPhase p) :=
  .goesOn _ (h.modifySeq _) (.phase p hp ha)
theorem Quiet.ends_fault (f : Fault) : TurnEnds i s q (u.faultCaller f) :=
  h.ends_setPhase (.faulted f)

/-- An ack wait goes on with the ack's removal, or holds. -/
theorem Quiet.ends_takeAck (hp : q.phase ≠ .idle) {opc : Nat} {go : Entry → State → State}
    (hg : ∀ e v, Quiet s v q → TurnEnds i s q (go e v)) : TurnEnds i s q (takeAck opc go u) := by
  rcases takeAck_cases opc go u with ⟨e, -⟩ | ⟨a, x, b, -, -, -, e⟩ <;> rw [e]
  · exact h.ends_hold hp
  · exact hg x _ (h.withPump _)

theorem Quiet.ends_takeMsg (hp : q.phase ≠ .idle) {k : Kind} {go : Entry → State → State}
    (hg : ∀ e v, Quiet s v q → TurnEnds i s q (go e v)) : TurnEnds i s q (takeMsg k go u) := by
  rcases takeMsg_cases k go u with ⟨e, -⟩ | ⟨a, x, b, -, -, -, e⟩ <;> rw [e]
  · exact h.ends_hold hp
  · exact hg x _ (h.withPump _)

/-- A frame is sent and the turn goes on with the node as it was, or `TransportError` ends it. -/
theorem Quiet.ends_sendFrame {opc : Byte} {pay : Bytes} {go : State → State}
    (hg : ∀ v, Quiet s v q → v.node = u.node → TurnEnds i s q (go v)) : TurnEnds i s q (sendFrame opc pay go u) := by
  rcases sendFrame_cases opc pay go u with ⟨n, -, -, e⟩ | ⟨-, e⟩ <;> rw [e]
  · exact hg _ (h.withEnv _) rfl
  · exact (h.withEnv _).ends_raise _

/-! ## Codec and variant operations -/

theorem Quiet.ends_withMessage {go : Byte → Bytes → State → State} (hg : ∀ o p, TurnEnds i s q (go o p u)) :
    TurnEnds i s q (withMessage go u) := by
  unfold withMessage
  split
  · exact hg _ _
  · exact h.ends_fault _

theorem Quiet.ends_respondKind (o : Byte) : TurnEnds i s q (respondKind o u) := by
  unfold respondKind
  split
  · exact h.ends_ok _
  · exact h.ends_raise _

/-- An accepted accessor faults, raises, or goes on with a field of the variant held. -/
theorem Quiet.ends_withField {f : FieldName} {sort : FieldType → Bool} {go : Kind → Nat → FieldType → State → State}
    (hacc : u.acceptsField f sort = true) (hg : ∀ k o ty, TurnEnds i s q (go k o ty u)) :
    TurnEnds i s q (withField f go u) := by
  unfold withField
  split
  · exact h.ends_fault _
  · next opc ho =>
    split
    · exact h.ends_raise _
    · next k hk =>
      split
      · next hf => simp [State.acceptsField, ho, hk, hf] at hacc
      · exact hg _ _ _

/-! ## Node operations -/

theorem Quiet.ends_pushKey (idx : Nat) (hi : i.negotiates = true → idx = q.i) : TurnEnds i s q (pushKey idx u) := by
  unfold pushKey
  split
  · exact h.ends_raise _
  · next slot hslot =>
    have hlt : idx < u.node.nets.length := (List.getElem?_eq_some_iff.1 hslot).1
    refine h.ends_sendFrame fun v hv hnode => ?_
    refine .goesOn _ ((hv.modifySeq _).modifySeq _) (.waitAck _ q.ch fun hn => ?_)
    rw [State.setPhase_node, State.setReq_node, hnode, ← hi hn]
    exact hlt

theorem Quiet.ends_issueSetKey (idx : Nat) (r : Option (Bytes × Bytes)) (hi : i.negotiates = true → idx = q.i) :
    TurnEnds i s q (issueSetKey idx r u) := by
  unfold issueSetKey
  split
  · exact h.ends_raise _
  · split
    · exact h.ends_pushKey idx hi
    · split
      · exact h.ends_raise _
      · exact (h.withNode _).ends_pushKey idx hi

theorem Quiet.ends_keyAcked (hp : q.phase ≠ .idle) (idx : Nat) {go : State → State}
    (hg : ∀ v, Quiet s v q → TurnEnds i s q (go v)) : TurnEnds i s q (keyAcked idx go u) := by
  refine h.ends_takeAck hp fun e v hv => ?_
  split
  · exact hv.ends_raise _
  · exact hg _ (hv.withNode _)

theorem Quiet.ends_capsRequest : TurnEnds i s q (capsRequest u) := by
  unfold capsRequest
  split
  · exact h.ends_raise _
  · exact h.ends_raise _
  · exact h.ends_sendFrame fun v hv _ => hv.ends_setPhase _

theorem Quiet.ends_capsPush : TurnEnds i s q (capsPush u) := by
  unfold capsPush
  split
  · exact h.ends_fault _
  · split
    · unfold capsFinish
      split
      · exact h.ends_fault _
      · exact (((h.withNode _).withPump _).withNode _).ends_ok _
    · exact h.ends_issueSetKey _ _ fun _ => by rw [h.seq]

/-- A step of a negotiation after C1, run in the phase the sequencer is in. -/
theorem Quiet.ends_capsResume (hn : i.negotiates = true) (hp : q.phase ≠ .idle) : TurnEnds i s q (capsResume q.phase u) := by
  unfold capsResume
  split
  · exact h.ends_takeMsg hp fun e v hv => .goesOn _ ((hv.withNode _).modifySeq _) (.reply e.payload)
  · exact h.ends_capsPush
  · next hack =>
    exact h.ends_keyAcked hp _ fun v hv => .goesOn _ (hv.modifySeq _) (.keyAcked hn hack)
  all_goals exact h.ends_hold hp

theorem Quiet.ends_sendReset {go : State → State} (hg : ∀ v, Quiet s v q → TurnEnds i s q (go v)) :
    TurnEnds i s q (sendReset go u) := h.ends_sendFrame fun v hv _ => hg v hv

theorem Quiet.ends_nodeStartIssue : TurnEnds i s q (nodeStartIssue u) := by
  have settles (v : State) (hv : Quiet s v q) : TurnEnds i s q (v.setPhase .settle) :=
    hv.ends_setPhase _
  unfold nodeStartIssue
  split
  · exact h.ends_raise _
  all_goals
    split
    · exact h.ends_raise _
    · exact h.ends_sendReset settles
    · rcases transportOpen_cases u with ⟨-, -, e⟩ | ⟨-, e⟩ <;> rw [e]
      · exact (h.withEnv _).ends_sendReset settles
      · exact (h.withEnv _).ends_raise _

theorem Quiet.ends_nodeSettled : TurnEnds i s q (nodeSettled u) := by
  unfold nodeSettled
  split
  · exact h.ends_setPhase _
  · exact (h.withPump _).ends_setPhase _

theorem Quiet.ends_nodeUp (hp : q.phase ≠ .idle) : TurnEnds i s q (nodeUp u) := by
  unfold nodeUp
  split
  · exact (h.withNode _).ends_capsRequest
  · exact h.ends_hold hp

theorem Quiet.ends_nodeStopFinish : TurnEnds i s q (nodeStopFinish u) := by
  unfold nodeStopFinish
  rcases transportClose_cases (u.withNode { u.node with state := .stopped }) with ⟨-, -, e⟩ | ⟨-, e⟩ <;> rw [e]
  · exact ((h.withNode _).withEnv _).ends_ok _
  · exact ((h.withNode _).withEnv _).ends_raise _

theorem Quiet.ends_nodeStopSignal : TurnEnds i s q (nodeStopSignal u) := by
  unfold nodeStopSignal
  split
  · exact (h.withPump _).ends_setPhase _
  · exact h.ends_nodeStopFinish

theorem Quiet.ends_nodeStopIssue (reset : Bool) : TurnEnds i s q (nodeStopIssue reset u) := by
  unfold nodeStopIssue
  split
  · exact h.ends_raise _
  · exact h.ends_raise _
  · split
    · exact h.ends_sendReset fun v hv => hv.ends_nodeStopSignal
    · exact h.ends_nodeStopSignal

theorem Quiet.ends_nodeDown (hp : q.phase ≠ .idle) : TurnEnds i s q (nodeDown u) := by
  unfold nodeDown
  split
  · exact h.ends_hold hp
  · exact (h.withPump _).ends_nodeStopFinish

/-! ## Channel operations -/

theorem Quiet.ends_issueChannel (hn : i.negotiates = false) {ch ranges required opc} {payload : Except Err Bytes} :
    TurnEnds i s q (issueChannel ch ranges required opc payload u) := by
  unfold issueChannel
  split
  · exact h.ends_raise _
  split
  · exact h.ends_raise _
  split
  · exact h.ends_raise _
  split
  · exact h.ends_raise _
  · refine h.ends_sendFrame fun v hv _ => ?_
    exact .goesOn _ (((hv.modifySeq _).modifySeq _).modifySeq _) (.waitAck _ _ fun hy => by simp [hn] at hy)

theorem Quiet.ends_finishChannel (next : Option ChanState) : TurnEnds i s q (finishChannel next u) := by
  unfold finishChannel
  split
  · exact (h.withNode _).ends_ok _
  · exact h.ends_ok _

theorem Quiet.ends_channelAcked (hp : q.phase ≠ .idle) {opc op} {go : State → State}
    (hg : ∀ v, Quiet s v q → TurnEnds i s q (go v)) : TurnEnds i s q (channelAcked opc op go u) := by
  refine h.ends_takeAck hp fun e v hv => ?_
  split
  · exact hv.ends_raise _
  · exact hg v hv

theorem Quiet.ends_channelResume (hp : q.phase ≠ .idle) {opc op next} :
    TurnEnds i s q (channelResume opc op next q.phase u) := by
  unfold channelResume
  split
  · exact h.ends_channelAcked hp fun v hv => hv.ends_finishChannel next
  all_goals exact h.ends_hold hp

theorem Quiet.ends_closeTaken (hp : q.phase ≠ .idle) (e : Entry) : TurnEnds i s q (closeTaken e u) := by
  unfold closeTaken
  split
  · exact h.ends_finishChannel _
  · exact h.ends_hold hp

theorem Quiet.ends_changeCallbacks (ch : Nat) (f : List Nat → List Nat) : TurnEnds i s q (changeCallbacks ch f u) := by
  unfold changeCallbacks
  split
  · exact h.ends_raise _
  · exact (h.withNode _).ends_ok _

end

/-! ## Every operation -/

/-- The sequencer on admission of operation `i`; no change for one that already runs `i`. -/
def Seq.running (q : Seq) (i : Instr) : Seq := { q with op := some i }

theorem Seq.running_of_op {q : Seq} {i : Instr} (h : q.op = some i) : q.running i = q := by
  cases q; cases h; rfl

/-- A turn of operation `i` on its port: nothing moves, or the port is idle or runs `i` and the turn ends in one of the two ways. -/
def TurnOn (i : Instr) (s t : State) : Prop :=
  t = s ∨ ∃ q, s.seqs[s.turn.port]? = some q ∧ (q.phase = .idle ∨ q.op = some i) ∧ TurnEnds i s (q.running i) t

/-- A turn on a port from what its two parts do. -/
theorem onPort_turn {i : Instr} {ok : Bool} {issue : State → State} {resume : Phase → State → State} {s t : State}
    (hi : ok = true → ∀ q, Quiet s (s.beginOp i) q → TurnEnds i s q (issue (s.beginOp i)))
    (hr : ∀ q : Seq, q.phase ≠ .idle → Quiet s s q → TurnEnds i s q (resume q.phase s))
    (he : onPort i ok issue resume s = .next t) : TurnOn i s t := by
  rcases onPort_cases he with rfl | ⟨q, hq, hidle, ha, rfl⟩ | ⟨q, hq, hbusy, hop, rfl⟩
  · exact .inl rfl
  · exact .inr ⟨q, hq, .inl hidle, hi ha _ ((Quiet.refl hq).modifySeq _)⟩
  · refine .inr ⟨q, hq, .inr hop, ?_⟩
    rw [Seq.running_of_op hop]
    exact hr q hbusy (.refl hq)

/-- The step of an operation of one step that is in progress. -/
theorem ends_hold_resume {i : Instr} {s : State} (q : Seq) (hp : q.phase ≠ .idle) (h : Quiet s s q) :
    TurnEnds i s q (hold q.phase s) := h.ends_hold hp

/-- Every operation takes its turn. -/
theorem exec_turn {i : Instr} {s t : State} (hc : i.isCommand = true) (he : exec i s = .next t) : TurnOn i s t := by
  cases i <;> try exact absurd hc Bool.false_ne_true
  all_goals simp only [exec] at he; refine onPort_turn ?_ ?_ he; clear he
  all_goals try exact ends_hold_resume
  case chAssign.refine_1 | chSetid.refine_1 | chSetto.refine_1 | chSetper.refine_1 | chSetfreq.refine_1
      | chOpen.refine_1 | chClose.refine_1 | chUnassign.refine_1 =>
    exact fun _ q h => h.ends_issueChannel rfl
  case chAssign.refine_2 | chSetid.refine_2 | chSetto.refine_2 | chSetper.refine_2 | chSetfreq.refine_2
      | chOpen.refine_2 | chUnassign.refine_2 =>
    exact fun q hp h => h.ends_channelResume hp
  case msgNew.refine_1 =>
    intro _ q h; split
    · exact h.ends_raise _
    split
    · exact h.ends_raise _
    · exact (h.withMr _).ends_ok _
  case msgSetop.refine_1 | msgSetpay.refine_1 =>
    intro _ q h; split
    · exact h.ends_raise _
    · exact (h.withMr _).ends_ok _
  case msgEncode.refine_1 | msgChecksum.refine_1 =>
    intro _ q h; exact h.ends_withMessage fun _ _ => h.ends_ok _
  case msgDecode.refine_1 =>
    intro _ q h; split
    · exact h.ends_raise _
    · exact (h.withMr _).ends_ok _
  case msgResolve.refine_1 =>
    intro _ q h; split
    · exact h.ends_raise _
    · exact h.ends_respondKind _
  case msgResolveMr.refine_1 =>
    intro _ q h; split
    · exact h.ends_fault _
    · exact h.ends_respondKind _
  case varBuild.refine_1 =>
    intro _ q h; split
    · exact h.ends_raise _
    · exact (h.withMr _).ends_ok _
  case varGet.refine_1 =>
    intro ha q h
    refine h.ends_withField ha fun k o ty => ?_
    split
    · exact h.ends_fault _
    split
    · exact h.ends_raise _
    · exact h.ends_ok _
  case varSet.refine_1 =>
    intro ha q h
    refine h.ends_withField ha fun k o ty => ?_
    dsimp only
    split
    · exact h.ends_raise _
    split
    · exact h.ends_fault _
    split
    · exact h.ends_raise _
    · exact (h.withMr _).ends_ok _
  case pumpStart.refine_1 =>
    intro _ q h; split
    · exact h.ends_ok _
    · exact (h.withPump _).ends_setPhase _
  case pumpStart.refine_2 =>
    intro q hp h; split
    · split
      · exact h.ends_ok _
      · exact h.ends_hold hp
    · exact h.ends_hold hp
  case pumpStop.refine_1 =>
    intro _ q h; split
    · exact (h.withPump _).ends_setPhase _
    · exact h.ends_ok _
  case pumpStop.refine_2 =>
    intro q hp h; split
    · split
      · exact h.ends_hold hp
      · exact (h.withPump _).ends_ok _
    · exact h.ends_hold hp
  case pumpReg.refine_1 | pumpUnreg.refine_1 => intro _ q h; exact (h.withPump _).ends_ok _
  case pumpWrite.refine_1 =>
    intro _ q h; exact h.ends_withMessage fun _ _ => h.ends_sendFrame fun v hv _ => hv.ends_ok _
  case pumpWaitack.refine_1 =>
    intro _ q h; split
    · exact h.ends_raise _
    · exact .goesOn _ (h.modifySeq _) (.waitAck q.req q.ch fun hn => nomatch hn)
  case pumpWaitack.refine_2 =>
    intro q hp h
    cases q.phase with
    | waitAck => exact h.ends_takeAck hp fun e v hv => hv.ends_ok _
    | _ => exact h.ends_hold hp
  case pumpWaitmsg.refine_1 =>
    intro _ q h; split
    · exact h.ends_raise _
    · exact h.ends_setPhase _
  case pumpWaitmsg.refine_2 =>
    intro q hp h; split
    · exact h.ends_takeMsg hp fun e v hv => hv.ends_ok _
    · exact h.ends_hold hp
  case nodeStart.refine_1 => intro _ q h; exact h.ends_nodeStartIssue
  case nodeStart.refine_2 =>
    intro q hp h
    have hcaps : TurnEnds .nodeStart s q (capsResume q.phase s) := h.ends_capsResume rfl hp
    cases hph : q.phase with
    | settle => exact h.ends_nodeSettled
    | waitPumpUp => exact h.ends_nodeUp hp
    | waitMsg | negKeys | waitAck => rw [hph] at hcaps; exact hcaps
    | idle | waitClosed | waitPumpDown | faulted => exact h.ends_hold hp
  case nodeStop.refine_1 => intro _ q h; exact h.ends_nodeStopIssue _
  case nodeStop.refine_2 =>
    intro q hp h; split
    · exact h.ends_nodeDown hp
    · exact h.ends_hold hp
  case nodeCaps.refine_1 => intro _ q h; exact h.ends_capsRequest
  case nodeCaps.refine_2 => intro q hp h; exact h.ends_capsResume rfl hp
  case nodeSetkey.refine_1 => intro _ q h; exact h.ends_issueSetKey _ _ fun hn => nomatch hn
  case nodeSetkey.refine_2 =>
    intro q hp h; split
    · exact h.ends_keyAcked hp _ fun v hv => hv.ends_ok _
    · exact h.ends_hold hp
  case nodeFreech.refine_1 | nodeGetkey.refine_1 =>
    intro _ q h; split
    · exact h.ends_ok _
    · exact h.ends_raise _
  case chClose.refine_2 =>
    intro q hp h; split
    · exact h.ends_channelAcked hp fun v hv => hv.ends_setPhase _
    · exact h.ends_takeMsg hp fun e v hv => hv.ends_closeTaken hp e
    · exact h.ends_hold hp
  case chReg.refine_1 | chUnreg.refine_1 => intro _ q h; exact h.ends_changeCallbacks _ _

/-- A frame instruction is the one of its kind and payload. -/
theorem Instr.eq_ofFrame_of_frame? {i : Instr} {k : Kind} {p : Bytes} (h : i.frame? = some (k, p)) : i = .ofFrame k p := by
  cases i <;> cases h <;> rfl

/-- A frame instruction writes the pump only. -/
theorem exec_frame {i : Instr} {s t : State} (hf : i.isCommand = false) (he : exec i s = .next t) :
    ∃ p, t = s.withPump p := by
  obtain ⟨⟨k, p⟩, hk⟩ := Option.isSome_iff_exists.1 (show i.frame?.isSome = true by simpa [Instr.isCommand] using hf)
  rw [Instr.eq_ofFrame_of_frame? hk, exec_ofFrame] at he
  cases he
  exact ⟨_, rfl⟩

/-- Settles O33: a frame instruction writes no port, and `exec_turn` says how the turn of an operation ends. -/
theorem responseComesWithIdle : Obligations.ResponseComesWithIdle := by
  intro i s t he
  have unmoved {t : State} (hseqs : t.seqs = s.seqs) (q q' : Seq) (h : s.seqs[s.turn.port]? = some q)
      (h' : t.seqs[s.turn.port]? = some q') (hp : q.phase ≠ .idle) : q'.phase ≠ .idle := by
    rw [hseqs, h] at h'
    cases h'
    exact hp
  cases hc : i.isCommand with
  | false =>
    obtain ⟨p, rfl⟩ := exec_frame hc he
    exact ⟨fun _ _ => rfl, .inl ⟨rfl, unmoved rfl⟩⟩
  | true =>
    rcases exec_turn hc he with rfl | ⟨q, hq, -, ⟨r, h⟩ | ⟨q', h, hm⟩⟩
    · exact ⟨fun _ _ => rfl, .inl ⟨rfl, unmoved rfl⟩⟩
    · exact ⟨h.others, .inr ⟨r, q, _, h.responses, hq, h.mine, rfl, rfl, rfl, rfl, rfl⟩⟩
    · refine ⟨h.others, .inl ⟨h.responses, fun _ q'' _ hq'' _ => ?_⟩⟩
      rw [h.mine] at hq''
      cases hq''
      exact hm.phase_ne_idle

/-! ## The sequencers over a step -/

/-- The state a fetched step goes on with. -/
def Fetched.state : Fetched → State
  | .run _ s => s
  | .done s => s

theorem readStep_seqs (s : State) : (readStep s).seqs = s.seqs := by
  simp only [readStep, State.rxRead]
  cases s.readResult with
  | got bs => exact State.traceEvent_seqs s _
  | error => exact State.traceEvent_seqs s _

theorem invokeListener_seqs (m : Entry) (t : Target) (rest : List Target) (s : State) :
    (invokeListener m t rest s).seqs = s.seqs := by
  unfold invokeListener
  split <;> rfl

theorem deliverStep_seqs (m : Entry) (t : Target) (rest : List Target) (s : State) :
    (deliverStep m t rest s).seqs = s.seqs := by
  unfold deliverStep
  split
  · split <;> rfl
  · rfl
  · rfl
  · exact invokeListener_seqs _ _ _ _
  · exact invokeListener_seqs _ _ _ _

theorem scanStep_seqs (s : State) : (scanStep s).state.seqs = s.seqs := by
  unfold scanStep
  split <;> rfl

/-- The pump agent writes no sequencer. -/
theorem workerStep_seqs (s : State) : (workerStep s).state.seqs = s.seqs := by
  unfold workerStep
  split
  · rfl
  split
  · split
    · simp only [Fetched.state]
      split
      · rfl
      · exact readStep_seqs s
    · exact scanStep_seqs s
    · exact deliverStep_seqs _ _ _ s
    · rfl
  · rfl

/-- The pump agent runs frame instructions only. -/
theorem workerStep_run {s u : State} {i : Instr} (h : workerStep s = .run i u) : i.isCommand = false := by
  unfold workerStep at h
  split at h
  · cases h
  split at h
  · split at h
    · cases h
    · unfold scanStep at h
      split at h
      · next hs =>
        obtain ⟨k, p, rfl, -⟩ := scanFrames_some hs
        cases h
        simp [Instr.isCommand, Instr.ofFrame_frame?]
      · cases h
    · cases h
    · cases h
  · cases h

/-- A request and a caller's step run an operation, or nothing, in the state they find. -/
theorem requestStep_cases (i : Instr) (s : State) :
    (i.isCommand = true ∧ requestStep i s = .run i s) ∨ requestStep i s = .done s := by
  unfold requestStep
  split
  · next h => exact .inl ⟨h.1, rfl⟩
  · exact .inr rfl

theorem callerStep_cases (s : State) :
    (∃ i : Instr, i.isCommand = true ∧ callerStep s = .run i s) ∨ callerStep s = .done s := by
  unfold callerStep
  split
  · next i _ =>
    split
    · next h => exact .inl ⟨i, h.1, rfl⟩
    · exact .inr rfl
  · exact .inr rfl

/-- What a step can do to the sequencers: an operation takes its turn, block reset makes them new, or they stay as they are. -/
theorem step_seqs {s t : State} (h : step s = .next t) :
    (∃ i u, i.isCommand = true ∧ u.seqs = s.seqs ∧ exec i u = .next t)
      ∨ t.seqs = List.replicate s.cfg.numCallers .reset ∨ t.seqs = s.seqs := by
  unfold step fetch at h
  cases hin : s.inputs with
  | nil =>
    simp only [hin] at h
    cases h
    exact .inr (.inr rfl)
  | cons ev rest =>
    simp only [hin] at h
    cases hag : ev.agent with
    | request k i =>
      simp only [hag] at h
      generalize hu : (s.withInputs rest).withTurn { port := k, answers := ev.answers } = u at h
      have hseqs : u.seqs = s.seqs := by rw [← hu]; rfl
      rcases requestStep_cases i u with ⟨hc, hrun⟩ | hdone
      · rw [hrun] at h
        exact .inl ⟨i, u, hc, hseqs, h⟩
      · rw [hdone] at h
        cases h
        exact .inr (.inr hseqs)
    | caller k =>
      simp only [hag] at h
      generalize hu : (s.withInputs rest).withTurn { port := k, answers := ev.answers } = u at h
      have hseqs : u.seqs = s.seqs := by rw [← hu]; rfl
      rcases callerStep_cases u with ⟨i, hc, hrun⟩ | hdone
      · rw [hrun] at h
        exact .inl ⟨i, u, hc, hseqs, h⟩
      · rw [hdone] at h
        cases h
        exact .inr (.inr hseqs)
    | pump =>
      simp only [hag] at h
      generalize hu : (s.withInputs rest).withTurn { (s.withInputs rest).turn with answers := ev.answers } = u at h
      have hseqs : (workerStep u).state.seqs = s.seqs := by rw [workerStep_seqs, ← hu]; rfl
      cases hw : workerStep u with
      | run i v =>
        rw [hw] at h hseqs
        obtain ⟨p, rfl⟩ := exec_frame (workerStep_run hw) h
        exact .inr (.inr hseqs)
      | done v =>
        rw [hw] at h hseqs
        cases h
        exact .inr (.inr hseqs)
    | blockReset =>
      simp only [hag] at h
      cases h
      exact .inr (.inl rfl)
    | transport b =>
      simp only [hag] at h
      cases h
      exact .inr (.inr rfl)

/-- The network table has a slot for every byte at most: only the reply of a negotiation sets its size. -/
theorem nets_le_kept (i : Instr) : Kept i (fun s => s.node.nets.length ≤ 255) := by
  constructor
  case limits =>
    intro _ s c n _
    simpa using Nat.le_of_lt_succ n.isLt
  case setKey =>
    intro idx name key _ _ s h
    exact (Node.setKey_length ..).trans_le h
  case stamp =>
    intro _ s idx h
    exact (Node.stamp_length ..).trans_le h
  all_goals intros; assumption

theorem nets_le_keptByStep : KeptByStep (fun s => s.node.nets.length ≤ 255) := by
  constructor
  case instr => exact nets_le_kept
  case reset => intros; exact Nat.zero_le _
  all_goals intros; assumption

/-! ## Sequencers stay sound -/

theorem Seq.reset_sound : Seq.reset.Sound := by simp [Seq.Sound, Seq.reset]

/-- A sequencer back in `Idle` is sound if its counter was in range. -/
theorem Seq.toIdle_sound {q : Seq} (h : q.i ≤ 255) : q.toIdle.Sound := by simp [Seq.Sound, h]

/-- Every move of an operation in progress leads to a sound sequencer: the counter goes up only from below 255, and a negotiation
waits for an ack only at a counter below the table's size. -/
theorem SeqMove.sound {i : Instr} {n : Nat} {q q' : Seq} (h : SeqMove i n q q') (hc : i.isCommand = true) (hop : q.op = some i)
    (hi : q.i ≤ 255) (hack : q.phase = .waitAck → i.negotiates = true → q.i < 255) (hn : n ≤ 255) : q'.Sound := by
  have hcom : (q.op.map Instr.isCommand).getD false = true := by simp [hop, hc]
  cases h with
  | stay hp => exact ⟨fun h => absurd h hp, fun _ => hcom, hi, fun h hneg => hack h (by simpa [hop] using hneg)⟩
  | phase p hp ha => exact ⟨fun h => absurd h hp, fun _ => hcom, hi, fun h => absurd h ha⟩
  | waitAck req ch hlt =>
    exact ⟨Phase.noConfusion, fun _ => hcom, hi, fun _ hneg => (hlt (by simpa [hop] using hneg)).trans_le hn⟩
  | reply bs => exact ⟨Phase.noConfusion, fun _ => hcom, Nat.zero_le _, Phase.noConfusion⟩
  | keyAcked hneg hp => exact ⟨Phase.noConfusion, fun _ => hcom, hack hp hneg, Phase.noConfusion⟩

/-- How a turn ends, the sequencer in turn is sound again. -/
theorem TurnEnds.sound {i : Instr} {s t : State} {q : Seq} (h : TurnEnds i s (q.running i) t) (hc : i.isCommand = true)
    (hq : q.Sound) (hrun : q.phase = .idle ∨ q.op = some i) (hn : t.node.nets.length ≤ 255) :
    ∃ q', InTurn s t q' ∧ q'.Sound := by
  obtain ⟨-, -, hi, hack⟩ := hq
  cases h with
  | answered r h => exact ⟨_, h.toInTurn, Seq.toIdle_sound hi⟩
  | goesOn q' h hm =>
    refine ⟨q', h.toInTurn, hm.sound hc rfl hi (fun hp hneg => ?_) hn⟩
    rcases hrun with hidle | hop
    · exact absurd (hidle.symm.trans hp) Phase.noConfusion
    · exact hack hp (by simpa [hop] using hneg)

/-- A turn that leaves the sequencer in turn sound leaves all of them sound, and as many. -/
theorem InTurn.forall_sound {s t : State} {q : Seq} (h : InTurn s t q) (hq : q.Sound) (hs : ∀ q ∈ s.seqs, q.Sound) :
    ∀ q ∈ t.seqs, q.Sound := by
  intro x hx
  obtain ⟨k, hk⟩ := List.mem_iff_getElem?.1 hx
  by_cases hport : k = s.turn.port
  · rw [hport, h.mine] at hk
    cases hk
    exact hq
  · rw [h.others k hport] at hk
    exact hs x (List.mem_of_getElem? hk)

/-- The turn of an operation keeps the number of sequencers and each of them sound. -/
theorem exec_seqs_sound {i : Instr} {s t : State} (hc : i.isCommand = true) (he : exec i s = .next t)
    (hs : ∀ q ∈ s.seqs, q.Sound) (hn : t.node.nets.length ≤ 255) :
    t.seqs.length = s.seqs.length ∧ ∀ q ∈ t.seqs, q.Sound := by
  rcases exec_turn hc he with rfl | ⟨q, hq, hrun, hends⟩
  · exact ⟨rfl, hs⟩
  · obtain ⟨q', hturn, hsound⟩ := hends.sound hc (hs q (List.mem_of_getElem? hq)) hrun hn
    exact ⟨hturn.count, hturn.forall_sound hsound hs⟩

/-- Settles O23: `step_seqs` gives the three cases, and the network table keeps its bound write by write. -/
theorem stepKeepsSequencersSound : Obligations.StepKeepsSequencersSound := by
  rintro s t ⟨hcount, hsound, hnets⟩ h
  have hcfg : t.cfg = s.cfg := stepKeepsTheParameters s t h
  have hnets' : t.node.nets.length ≤ 255 := nets_le_keptByStep.step hnets h
  unfold State.SequencersSound
  rw [hcfg, ← hcount]
  rcases step_seqs h with ⟨i, u, hc, hu, he⟩ | hreset | hsame
  · rw [← hu] at hsound ⊢
    obtain ⟨hlen, hall⟩ := exec_seqs_sound hc he hsound hnets'
    exact ⟨hlen, hall, hnets'⟩
  · rw [hreset, List.length_replicate]
    exact ⟨hcount.symm, fun q hq => List.eq_of_mem_replicate hq ▸ Seq.reset_sound, hnets'⟩
  · rw [hsame]
    exact ⟨rfl, hsound, hnets'⟩

end Sys2Proof.Machine
end

section
/-! PROOFS for 10_state.md. Reset (O17, O18, O19), the schedule's entries for a port (O10), and reads of an unwritten `MR` (O38). -/

namespace Sys2Proof.Machine

open Sys2Proof.Claims

/-! ## Reset -/

/-- Settles O17: the values `State.resetWith` is made of. -/
theorem resetValues : Obligations.ResetValues := by
  intro c
  have hseqs : ∀ q ∈ (State.resetWith c).seqs, q.op = none ∧ q.phase = .idle ∧ q.req = none ∧ q.ch = none ∧ q.i = 0 := by
    intro q hq
    rw [List.eq_of_mem_replicate hq]
    exact ⟨rfl, rfl, rfl, rfl, rfl⟩
  refine ⟨rfl, rfl, rfl, rfl, rfl, rfl, rfl, rfl, rfl, rfl, rfl, rfl, rfl, rfl, rfl, rfl, rfl, rfl, rfl, rfl, rfl, ?_, hseqs⟩
  exact List.length_replicate

/-- Settles O18. -/
theorem blockResetStep : Obligations.BlockResetStep := by
  intro s a rest hin
  simp only [step, fetch, hin]
  rfl

/-- Settles O19, from the reset values of the parts the invariants speak of. -/
theorem resetIsSound : Obligations.ResetIsSound := by
  intro c
  refine ⟨⟨Nat.zero_le _, queuesSound_reset c⟩, flagsSound_reset, ⟨netsSound_reset, chansSound_reset, regSound_reset⟩, ?_⟩
  exact ⟨List.length_replicate, fun q hq => List.eq_of_mem_replicate hq ▸ Seq.reset_sound, Nat.zero_le _⟩

/-! ## The schedule's entries for a port -/

/-- A request entry is a request on its port, once the entry is taken. -/
theorem fetch_request {s : State} {k : Nat} {i : Instr} {a : Answers} {rest : List Event}
    (h : s.inputs = { agent := .request k i, answers := a } :: rest) : fetch s = requestStep i (turnTaken s k a rest) := by
  simp only [fetch, h]
  rfl

/-- A caller's entry is the next step on its port, once the entry is taken. -/
theorem fetch_caller {s : State} {k : Nat} {a : Answers} {rest : List Event}
    (h : s.inputs = { agent := .caller k, answers := a } :: rest) : fetch s = callerStep (turnTaken s k a rest) := by
  simp only [fetch, h]
  rfl

/-- The sequencer in turn after an entry for port `k` has been taken. -/
theorem turnTaken_seq {s : State} {k : Nat} {q : Seq} (h : s.seqs[k]? = some q) (a : Answers) (rest : List Event) :
    (turnTaken s k a rest).seq = q := State.seq_of_getElem? h

/-- Settles O10, one clause for each agent and phase. -/
theorem stepRunsTheOperationOnThePort : Obligations.StepRunsTheOperationOnThePort := by
  intro s k i a rest q hq hc
  have hseq : (turnTaken s k a rest).seq = q := turnTaken_seq hq a rest
  refine ⟨fun hin hidle => ?_, fun hin hbusy => ?_, fun hin hbusy hop => ?_⟩
  · have hrun : requestStep i (turnTaken s k a rest) = .run i (turnTaken s k a rest) := by
      simp [requestStep, hseq, hc, hidle]
    simp only [step, fetch_request hin, hrun]
  · have hdone : requestStep i (turnTaken s k a rest) = .done (turnTaken s k a rest) := by
      simp [requestStep, hseq, hbusy]
    simp only [step, fetch_request hin, hdone]
  · have hrun : callerStep (turnTaken s k a rest) = .run i (turnTaken s k a rest) := by
      simp [callerStep, hseq, hc, hbusy, hop]
    simp only [step, fetch_caller hin, hrun]

/-! ## What an issued operation leaves, in the statements' words -/

/-- An operation that is issued and waits in phase `p`. -/
theorem setPhase_beginOp (s : State) (i : Instr) (p : Phase) : (s.beginOp i).setPhase p = waiting s i p :=
  State.modifySeq_modifySeq s _ _

/-- An operation that is issued and faults its caller. -/
theorem faultCaller_beginOp (s : State) (i : Instr) (f : Fault) : (s.beginOp i).faultCaller f = waiting s i (.faulted f) :=
  setPhase_beginOp s i _

/-- An operation that is issued and answers: the admission leaves no trace. -/
theorem respond_beginOp (s : State) (i : Instr) (r : Response) : (s.beginOp i).respond r = responded s r :=
  State.modifySeq_modifySeq (s.withEnv { s.env with responses := s.env.responses ++ [(s.turn.port, r)] }) _ _

/-- An operation that is issued and raises. -/
theorem raise_beginOp (s : State) (i : Instr) (e : Err) : (s.beginOp i).raise e = failed s e := respond_beginOp s i _

/-! ## Fields and values -/

/-- The layouts of the statements are the model's. -/
theorem layout_eq_fieldsOf (k : Kind) : k.layout = fieldsOf k := by cases k <;> rfl

/-- No layout names a field twice. -/
theorem layout_names_nodup (k : Kind) : (k.layout.map fun e => e.1).Nodup := by cases k <;> decide

/-- The entry of a list with distinct keys is the one a search for its key finds. -/
theorem find?_eq_of_mem_of_nodup {α β : Type} [DecidableEq α] {l : List (α × β)} (hn : (l.map fun e => e.1).Nodup)
    {e : α × β} (he : e ∈ l) : (l.find? fun x => x.1 = e.1) = some e := by
  induction l with
  | nil => cases he
  | cons x l ih =>
    obtain ⟨hx, hl⟩ := List.nodup_cons.1 hn
    rcases List.mem_cons.1 he with rfl | hmem
    · simp
    · have hmap : e.1 ∈ l.map fun e => e.1 := List.mem_map_of_mem hmem
      have hne : x.1 ≠ e.1 := fun h => hx (show x.1 ∈ _ from h ▸ hmap)
      rw [List.find?_cons_of_neg (by simpa using hne)]
      exact ih hl hmem

/-- A field of the variant is found at its offset with its type. -/
theorem fieldAt_of_hasField {k : Kind} {f : FieldName} {o : Nat} {ty : FieldType} (h : HasField k f o ty) :
    k.fieldAt f = some (o, ty) := by
  rw [HasField, ← layout_eq_fieldsOf] at h
  rw [Kind.fieldAt, find?_eq_of_mem_of_nodup (layout_names_nodup k) h]
  rfl

/-- A field that does not belong to the variant is not found. -/
theorem fieldAt_of_noField {k : Kind} {f : FieldName} (h : NoField k f) : k.fieldAt f = none := by
  rw [NoField, ← layout_eq_fieldsOf] at h
  rw [Kind.fieldAt, List.find?_eq_none.2 (by simpa using h)]
  rfl

/-- The sort check of the model is the statements'. -/
theorem takes_iff_ofSort (ty : FieldType) (v : Value) : ty.takes v = true ↔ OfSort ty v := by
  cases ty <;> cases v <;> simp [FieldType.takes, OfSort]

/-- Only a value of the field's sort is too big or of the wrong length. -/
theorem ofSort_of_tooBig : ∀ {ty : FieldType} {v : Value}, TooBig ty v → OfSort ty v
  | .byte, .num _, _ | .word, .num _, _ => trivial
  | .byte, .bytes _, h | .word, .bytes _, h | .fixed _, _, h | .rest, _, h => h.elim

theorem ofSort_of_wrongLength {o : Nat} : ∀ {ty : FieldType} {v : Value}, WrongLength o ty v → OfSort ty v
  | .fixed _, .bytes _, _ | .rest, .bytes _, _ => trivial
  | .byte, _, h | .word, _, h | .fixed _, .num _, h | .rest, .num _, h => h.elim

/-- The range error of a number, the length error of a byte string, and no error for every other value. -/
theorem valueError_of_tooBig {f : FieldName} {o : Nat} : ∀ {ty : FieldType} {v : Value}, TooBig ty v →
    ty.valueError f o v = some (.valueOutOfRange (.field f))
  | .byte, .num _, h | .word, .num _, h => if_pos h
  | .byte, .bytes _, h | .word, .bytes _, h | .fixed _, _, h | .rest, _, h => h.elim

theorem valueError_of_wrongLength {f : FieldName} {o : Nat} : ∀ {ty : FieldType} {v : Value}, WrongLength o ty v →
    ty.valueError f o v = some (.lengthError (.field f))
  | .fixed _, .bytes _, h | .rest, .bytes _, h => if_pos h
  | .byte, _, h | .word, _, h | .fixed _, .num _, h | .rest, .num _, h => h.elim

theorem valueError_eq_none {f : FieldName} {o : Nat} : ∀ {ty : FieldType} {v : Value}, ¬ TooBig ty v →
    ¬ WrongLength o ty v → ty.valueError f o v = none
  | .byte, .num _, hr, _ | .word, .num _, hr, _ => if_neg hr
  | .fixed _, .bytes _, _, hl | .rest, .bytes _, _, hl => if_neg hl
  | .byte, .bytes _, _, _ | .word, .bytes _, _, _ | .fixed _, .num _, _, _ | .rest, .num _, _, _ => rfl

/-! ## Reads of `MR` -/

/-- A whole read of an unwritten `MR` faults the caller. -/
theorem withMessage_of_unwritten {s : State} (h : Unwritten s) (go : Byte → Bytes → State → State) :
    withMessage go s = s.faultCaller .unwrittenMR := by
  unfold withMessage
  split
  · next hopc hpay => rcases h with h | h <;> simp [h] at hopc hpay
  · rfl

section
variable {s : State} {f : FieldName} {sort : FieldType → Bool} {go : Kind → Nat → FieldType → State → State}

/-- With no opcode, or one of no variant, every request for a field is admitted; with a variant, one for a field of it that passes
the sort check. -/
theorem acceptsField_of_unwritten (h : s.mr.opcode = none) : s.acceptsField f sort = true := by
  simp [State.acceptsField, h]

theorem acceptsField_of_unresolved {opc : Byte} (h : s.mr.opcode = some opc) (hr : resolve s.cfg opc = none) :
    s.acceptsField f sort = true := by
  simp [State.acceptsField, h, hr]

theorem acceptsField_of_noField {opc : Byte} {k : Kind} (h : s.mr.opcode = some opc) (hr : resolve s.cfg opc = some k)
    (hf : NoField k f) : s.acceptsField f sort = false := by
  simp [State.acceptsField, h, hr, fieldAt_of_noField hf]

theorem acceptsField_of_hasField {opc : Byte} {k : Kind} {o : Nat} {ty : FieldType} (h : s.mr.opcode = some opc)
    (hr : resolve s.cfg opc = some k) (hf : HasField k f o ty) : s.acceptsField f sort = sort ty := by
  simp [State.acceptsField, h, hr, fieldAt_of_hasField hf]

/-- The read of the opcode faults, raises `UnknownMessageType`, or goes on with the field of the variant. -/
theorem withField_of_unwritten (h : s.mr.opcode = none) : withField f go s = s.faultCaller .unwrittenMR := by
  simp [withField, h]

theorem withField_of_unresolved {opc : Byte} (h : s.mr.opcode = some opc) (hr : resolve s.cfg opc = none) :
    withField f go s = s.raise (.unknownMessageType opc) := by
  simp [withField, h, hr]

theorem withField_of_hasField {opc : Byte} {k : Kind} {o : Nat} {ty : FieldType} (h : s.mr.opcode = some opc)
    (hr : resolve s.cfg opc = some k) (hf : HasField k f o ty) : withField f go s = go k o ty s := by
  simp [withField, h, hr, fieldAt_of_hasField hf]

end

/-! ## Operations on an `Idle` port with `MR` unwritten -/

section
variable {s : State} (hp : PortIdle s)
include hp

/-- The operations that read a whole message. -/
theorem exec_message_of_unwritten (h : Unwritten s) :
    ∀ i ∈ ([.msgEncode, .msgChecksum, .pumpWrite] : List Instr), exec i s = .next (mrFaulted s i) := by
  have faults (i : Instr) (go : Byte → Bytes → State → State) :
      onPort i true (withMessage go) hold s = .next (mrFaulted s i) := by
    rw [onPort_issue hp, withMessage_of_unwritten (s := s.beginOp i) h, faultCaller_beginOp]
    rfl
  intro i hi
  simp only [List.mem_cons, List.not_mem_nil, or_false] at hi
  rcases hi with rfl | rfl | rfl
  · exact faults _ _
  · exact faults _ _
  · exact faults _ _

/-- The operations that read the opcode first. -/
theorem exec_msgResolveMr_of_unwritten (h : s.mr.opcode = none) :
    exec .msgResolveMr s = .next (mrFaulted s .msgResolveMr) := by
  simp only [exec, execMsgResolveMr, onPort_issue hp, State.beginOp_mr, h, faultCaller_beginOp]
  rfl

variable (f : FieldName)

/-- An accessor whose request is accepted reads the opcode. -/
theorem exec_varGet_of_unwritten (h : s.mr.opcode = none) : exec (.varGet f) s = .next (mrFaulted s (.varGet f)) := by
  rw [exec, execVarGet, acceptsField_of_unwritten h, onPort_issue hp, withField_of_unwritten (s := s.beginOp _) h, faultCaller_beginOp]
  rfl

theorem exec_varSet_of_unwritten (v : Value) (h : s.mr.opcode = none) :
    exec (.varSet f v) s = .next (mrFaulted s (.varSet f v)) := by
  rw [exec, execVarSet, acceptsField_of_unwritten h, onPort_issue hp, withField_of_unwritten (s := s.beginOp _) h, faultCaller_beginOp]
  rfl

section
variable {opc : Byte} (h : s.mr.opcode = some opc)
include h

theorem exec_varGet_of_unresolved (hr : resolve s.cfg opc = none) :
    exec (.varGet f) s = .next (failed s (.unknownMessageType opc)) := by
  rw [exec, execVarGet, acceptsField_of_unresolved h hr, onPort_issue hp,
    withField_of_unresolved (s := s.beginOp _) h hr, raise_beginOp]

theorem exec_varSet_of_unresolved (v : Value) (hr : resolve s.cfg opc = none) :
    exec (.varSet f v) s = .next (failed s (.unknownMessageType opc)) := by
  rw [exec, execVarSet, acceptsField_of_unresolved h hr, onPort_issue hp,
    withField_of_unresolved (s := s.beginOp _) h hr, raise_beginOp]

variable {k : Kind} (hr : resolve s.cfg opc = some k)
include hr

theorem exec_varGet_of_noField (hf : NoField k f) : exec (.varGet f) s = .next s := by
  rw [exec, execVarGet, acceptsField_of_noField h hr hf, onPort_refuse hp]

theorem exec_varSet_of_noField (v : Value) (hf : NoField k f) : exec (.varSet f v) s = .next s := by
  rw [exec, execVarSet, acceptsField_of_noField h hr hf, onPort_refuse hp]

variable {o : Nat} {ty : FieldType} (hf : HasField k f o ty)
include hf

theorem exec_varGet_of_payload_unwritten (hpay : s.mr.payload = none) :
    exec (.varGet f) s = .next (mrFaulted s (.varGet f)) := by
  rw [exec, execVarGet, acceptsField_of_hasField h hr hf, onPort_issue hp, withField_of_hasField (s := s.beginOp _) h hr hf]
  simp only [State.beginOp_mr, hpay, faultCaller_beginOp]
  rfl

theorem exec_varSet_of_not_ofSort {v : Value} (hv : ¬ OfSort ty v) : exec (.varSet f v) s = .next s := by
  have hno : ty.takes v = false := Bool.eq_false_iff.2 (mt (takes_iff_ofSort ty v).1 hv)
  rw [exec, execVarSet, acceptsField_of_hasField h hr hf, hno, onPort_refuse hp]

theorem exec_varSet_of_valueError {v : Value} (hv : OfSort ty v) {e : Err} (he : ty.valueError f o v = some e) :
    exec (.varSet f v) s = .next (failed s e) := by
  rw [exec, execVarSet, acceptsField_of_hasField h hr hf, (takes_iff_ofSort ty v).2 hv, onPort_issue hp,
    withField_of_hasField (s := s.beginOp _) h hr hf]
  simp only [he, raise_beginOp]

theorem exec_varSet_of_payload_unwritten {v : Value} (hv : OfSort ty v) (he : ty.valueError f o v = none)
    (hpay : s.mr.payload = none) : exec (.varSet f v) s = .next (mrFaulted s (.varSet f v)) := by
  rw [exec, execVarSet, acceptsField_of_hasField h hr hf, (takes_iff_ofSort ty v).2 hv, onPort_issue hp,
    withField_of_hasField (s := s.beginOp _) h hr hf]
  simp only [he, State.beginOp_mr, hpay, faultCaller_beginOp]
  rfl

end

end

/-- Settles O38, operation by operation. -/
theorem unwrittenMrFaultsTheCaller : Obligations.UnwrittenMrFaultsTheCaller := by
  intro s hp
  refine ⟨exec_message_of_unwritten hp, fun hopc => ?_, fun opc f hmr => ?_⟩
  · exact ⟨exec_msgResolveMr_of_unwritten hp hopc, fun f => exec_varGet_of_unwritten hp f hopc,
      fun f v => exec_varSet_of_unwritten hp f v hopc⟩
  · have hopc : s.mr.opcode = some opc := by rw [hmr]
    have hpay : s.mr.payload = none := by rw [hmr]
    refine ⟨fun hr => ⟨exec_varGet_of_unresolved hp f hopc hr, fun v => exec_varSet_of_unresolved hp f hopc v hr⟩,
      fun k hr => ⟨fun hf => ?_, fun o ty hf => ⟨?_, fun v => ⟨?_, ?_, ?_, ?_⟩⟩⟩⟩
    · exact ⟨exec_varGet_of_noField hp f hopc hr hf, fun v => exec_varSet_of_noField hp f hopc hr v hf⟩
    · exact exec_varGet_of_payload_unwritten hp f hopc hr hf hpay
    · exact exec_varSet_of_not_ofSort hp f hopc hr hf
    · exact fun hbig => exec_varSet_of_valueError hp f hopc hr hf (ofSort_of_tooBig hbig) (valueError_of_tooBig hbig)
    · exact fun hlen => exec_varSet_of_valueError hp f hopc hr hf (ofSort_of_wrongLength hlen) (valueError_of_wrongLength hlen)
    · exact fun hv hr' hl => exec_varSet_of_payload_unwritten hp f hopc hr hf hv (valueError_eq_none hr' hl) hpay

end Sys2Proof.Machine
end

section
/-! PROOFS for 20_memory.md. The shared operations in the words of the statements: an answer, a command handed to TX, and a message
taken from a queue are `succeeded`, `failed`, `sent`, `notSent`, `ackTaken` and `msgTaken` of the statements. -/

namespace Sys2Proof.Machine

open Sys2Proof.Claims

/-! ## Answers -/

/-- An operation that is issued and ends with OK. -/
theorem ok_beginOp (s : State) (i : Instr) (r : Result) : (s.beginOp i).ok r = succeeded s r := respond_beginOp s i _

/-! ## Writes -/

/-- Where a write succeeds the frame is sent and the sender goes on. -/
theorem sendFrame_of_writable {s : State} {n : Nat} (h : Writable s n) (opc : Byte) (pay : Bytes) (go : State → State) :
    sendFrame opc pay go s = go (sent s (encodeF opc pay) n) := by
  rw [sendFrame, txWrite_done h.1 (encodeF_ne_nil opc pay) h.2]
  rfl

/-- Where a write fails nothing is sent and `TransportError` ends the operation. -/
theorem sendFrame_of_unwritable {s : State} (h : Unwritable s) (opc : Byte) (pay : Bytes) (go : State → State) :
    sendFrame opc pay go s = failed (notSent s (encodeF opc pay)) .transportError := by
  rw [sendFrame, txWrite_error h]
  rfl

/-- The same on admission of operation `i`, of which a failed write leaves no trace. -/
theorem sendFrame_beginOp_of_writable {s : State} {n : Nat} (h : Writable s n) (i : Instr) (opc : Byte) (pay : Bytes)
    (go : State → State) : sendFrame opc pay go (s.beginOp i) = go ((sent s (encodeF opc pay) n).beginOp i) :=
  sendFrame_of_writable (s := s.beginOp i) h opc pay go

theorem sendFrame_beginOp_of_unwritable {s : State} (h : Unwritable s) (i : Instr) (opc : Byte) (pay : Bytes)
    (go : State → State) :
    sendFrame opc pay go (s.beginOp i) = failed (notSent s (encodeF opc pay)) .transportError := by
  rw [sendFrame_of_unwritable (s := s.beginOp i) h]
  exact raise_beginOp (notSent s (encodeF opc pay)) i _

/-! ## Takes -/

/-- A take answers the first match and the queue around it. -/
theorem qTake_of_firstIn {P : Entry → Bool} {q a b : List Entry} {e : Entry} (h : FirstIn (fun x => P x = true) q a e b) :
    qTake P q = some (e, a ++ b) := by
  obtain ⟨rfl, ha, he⟩ := h
  induction a with
  | nil => simp [qTake, he]
  | cons x a ih =>
    obtain ⟨hx, ha⟩ := List.forall_mem_cons.1 ha
    simp [qTake, hx, ih ha]

/-- A take answers nothing where nothing matches. -/
theorem qTake_of_forall_not {P : Entry → Bool} {q : List Entry} (h : ∀ x ∈ q, ¬ P x = true) : qTake P q = none := by
  rcases qTake_cases P q with ⟨hnone, -⟩ | ⟨a, e, b, rfl, -, he, -⟩
  · exact hnone
  · exact absurd he (h e (by simp))

theorem ackMatch_iff (opc : Nat) (e : Entry) : ackMatch opc e = true ↔ IsAckOf opc e := by simp [ackMatch, IsAckOf]

section
variable {s : State} {opc : Nat} {k : Kind} {a b : List Entry} {e : Entry}

/-- An ack wait goes on with the most recent ack, out of the queue, or holds (42_pump.md R210). -/
theorem takeAck_of_firstIn (h : FirstIn (IsAckOf opc) s.pump.ackQ a e b) (go : Entry → State → State) :
    takeAck opc go s = go e (ackTaken s a b) := by
  have hq : qTake (ackMatch opc) s.pump.ackQ = some (e, a ++ b) :=
    qTake_of_firstIn (by simpa only [FirstIn, ackMatch_iff] using h)
  simp only [takeAck, hq]
  rfl

theorem takeAck_of_no_ack (h : ∀ e ∈ s.pump.ackQ, ¬ IsAckOf opc e) (go : Entry → State → State) : takeAck opc go s = s := by
  have hq : qTake (ackMatch opc) s.pump.ackQ = none := qTake_of_forall_not (by simpa only [ackMatch_iff] using h)
  simp only [takeAck, hq]

/-- A message wait goes on with the most recent message of the kind, out of the queue, or holds (R211). -/
theorem takeMsg_of_firstIn (h : FirstIn (fun x => x.kind = k) s.pump.msgQ a e b) (go : Entry → State → State) :
    takeMsg k go s = go e (msgTaken s a b) := by
  have hq : qTake (fun e => decide (e.kind = k)) s.pump.msgQ = some (e, a ++ b) :=
    qTake_of_firstIn (by simpa only [FirstIn, decide_eq_true_eq] using h)
  simp only [takeMsg, hq]
  rfl

theorem takeMsg_of_no_message (h : ∀ e ∈ s.pump.msgQ, e.kind ≠ k) (go : Entry → State → State) : takeMsg k go s = s := by
  have hq : qTake (fun e => decide (e.kind = k)) s.pump.msgQ = none :=
    qTake_of_forall_not (by simpa only [decide_eq_true_eq] using h)
  simp only [takeMsg, hq]

end

end Sys2Proof.Machine
end

section
/-! PROOFS for 20_memory.md. What one instruction hands to TX (O34): `TxEnds` says how TX ends, and each operation that writes does it
through one `sendFrame`, with nothing written before it or after it. -/

namespace Sys2Proof.Machine

open Sys2Proof.Claims

/-- Whether instruction `i` may write a frame of opcode `opc` (30_encoding.md R99). -/
def MaySend (i : Instr) (opc : Byte) : Prop :=
  i ≠ .pumpWrite → opc ∈ ([0x4A, 0x4D, 0x46, 0x42, 0x51, 0x44, 0x43, 0x45, 0x4B, 0x4C, 0x41] : List Byte)

/-- How TX ends when instruction `i` has gone from `s` to `t`: as it was, or longer by one frame `i` may write. -/
inductive TxEnds (i : Instr) (s t : State) : Prop
  | same (h : t.env.tx = s.env.tx)
  | frame (opc : Byte) (pay : Bytes) (ho : MaySend i opc) (h : t.env.tx = s.env.tx ++ [encodeF opc pay])

/-- A part of a step that begins with TX as it was. -/
theorem TxEnds.of_tx_eq {i : Instr} {s u t : State} (h : TxEnds i u t)
    (hu : u.env.tx = s.env.tx := by rfl) : TxEnds i s t := by
  cases h with
  | same h => exact .same (h.trans hu)
  | frame opc pay ho h => exact .frame opc pay ho (by rw [h, hu])

/-! ## What writes nothing -/

theorem takeAck_tx {opc : Nat} {go : Entry → State → State} (s : State)
    (hg : ∀ e t, (go e t).env.tx = t.env.tx := by intros; rfl) :
    (takeAck opc go s).env.tx = s.env.tx := by
  rcases takeAck_cases opc go s with ⟨e, -⟩ | ⟨a, x, b, -, -, -, e⟩ <;> rw [e]
  exact hg x _

theorem takeMsg_tx {k : Kind} {go : Entry → State → State} (s : State)
    (hg : ∀ e t, (go e t).env.tx = t.env.tx := by intros; rfl) :
    (takeMsg k go s).env.tx = s.env.tx := by
  rcases takeMsg_cases k go s with ⟨e, -⟩ | ⟨a, x, b, -, -, -, e⟩ <;> rw [e]
  exact hg x _

theorem withMessage_tx {go : Byte → Bytes → State → State} (s : State)
    (hg : ∀ o p t, (go o p t).env.tx = t.env.tx := by intros; rfl) :
    (withMessage go s).env.tx = s.env.tx := by
  unfold withMessage
  split
  · exact hg _ _ s
  · rfl

theorem withField_tx {f : FieldName} {go : Kind → Nat → FieldType → State → State} (s : State)
    (hg : ∀ k o ty t, (go k o ty t).env.tx = t.env.tx) : (withField f go s).env.tx = s.env.tx := by
  unfold withField
  split
  · rfl
  split
  · rfl
  split
  · rfl
  · exact hg _ _ _ s

theorem respondKind_tx (opc : Byte) (s : State) : (respondKind opc s).env.tx = s.env.tx := by
  unfold respondKind
  split <;> rfl

theorem keyAcked_tx {go : State → State} (idx : Nat) (s : State)
    (hg : ∀ t, (go t).env.tx = t.env.tx := by intros; rfl) :
    (keyAcked idx go s).env.tx = s.env.tx := by
  refine takeAck_tx s fun e t => ?_
  split
  · rfl
  · exact hg _

theorem capsFinish_tx (s : State) : (capsFinish s).env.tx = s.env.tx := by
  unfold capsFinish
  split <;> rfl

theorem nodeStopFinish_tx (s : State) : (nodeStopFinish s).env.tx = s.env.tx := by
  unfold nodeStopFinish
  rcases transportClose_cases (s.withNode { s.node with state := .stopped }) with ⟨-, -, e⟩ | ⟨-, e⟩ <;> rw [e] <;> rfl

theorem nodeStopSignal_tx (s : State) : (nodeStopSignal s).env.tx = s.env.tx := by
  unfold nodeStopSignal
  split
  · rfl
  · exact nodeStopFinish_tx s

theorem finishChannel_tx (next : Option ChanState) (s : State) : (finishChannel next s).env.tx = s.env.tx := by
  unfold finishChannel
  split <;> rfl

theorem channelAcked_tx {go : State → State} (opc : Byte) (op : ChannelOp) (s : State)
    (hg : ∀ t, (go t).env.tx = t.env.tx := by intros; rfl) :
    (channelAcked opc op go s).env.tx = s.env.tx := by
  refine takeAck_tx s fun e t => ?_
  split
  · rfl
  · exact hg _

theorem channelResume_tx (opc : Byte) (op : ChannelOp) (next : Option ChanState) (p : Phase) (s : State) :
    (channelResume opc op next p s).env.tx = s.env.tx := by
  cases p with
  | waitAck => exact channelAcked_tx opc op s (finishChannel_tx next)
  | idle | waitClosed | waitMsg | waitPumpUp | waitPumpDown | settle | negKeys | faulted => rfl

theorem closeTaken_tx (e : Entry) (s : State) : (closeTaken e s).env.tx = s.env.tx := by
  unfold closeTaken
  split
  · exact finishChannel_tx _ s
  · rfl

theorem changeCallbacks_tx (ch : Nat) (f : List Nat → List Nat) (s : State) :
    (changeCallbacks ch f s).env.tx = s.env.tx := by
  unfold changeCallbacks
  split <;> rfl

/-! ## What writes one frame -/

section
variable {i : Instr} {s : State}

/-- A frame is sent by a sender that writes nothing after it, or nothing is. -/
theorem sendFrame_txEnds {opc : Byte} {pay : Bytes} {go : State → State} (ho : MaySend i opc)
    (hg : ∀ t, (go t).env.tx = t.env.tx := by intros; rfl) : TxEnds i s (sendFrame opc pay go s) := by
  rcases sendFrame_cases opc pay go s with ⟨n, -, -, e⟩ | ⟨-, e⟩
  · exact .frame opc pay ho (by rw [e, hg]; rfl)
  · exact .same (by rw [e]; rfl)

theorem pushKey_txEnds (idx : Nat) : TxEnds i s (pushKey idx s) := by
  unfold pushKey
  split
  · exact .same rfl
  · exact sendFrame_txEnds (by simp [MaySend])

theorem issueSetKey_txEnds (idx : Nat) (r : Option (Bytes × Bytes)) : TxEnds i s (issueSetKey idx r s) := by
  unfold issueSetKey
  split
  · exact .same rfl
  split
  · exact pushKey_txEnds idx
  split
  · exact .same rfl
  · exact (pushKey_txEnds idx).of_tx_eq

theorem capsRequest_txEnds : TxEnds i s (capsRequest s) := by
  unfold capsRequest
  split
  · exact .same rfl
  · exact .same rfl
  · exact sendFrame_txEnds (by simp [MaySend])

theorem capsPush_txEnds : TxEnds i s (capsPush s) := by
  unfold capsPush
  split
  · exact .same rfl
  split
  · exact .same (capsFinish_tx s)
  · exact issueSetKey_txEnds _ _

theorem capsResume_txEnds (p : Phase) : TxEnds i s (capsResume p s) := by
  cases p with
  | waitMsg => exact .same (takeMsg_tx s)
  | negKeys => exact capsPush_txEnds
  | waitAck => exact .same (keyAcked_tx _ s)
  | idle | waitClosed | waitPumpUp | waitPumpDown | settle | faulted => exact .same rfl

theorem nodeStartIssue_txEnds : TxEnds i s (nodeStartIssue s) := by
  have reset (t : State) : TxEnds i t (sendReset (fun u => u.setPhase .settle) t) :=
    sendFrame_txEnds (by simp [MaySend])
  unfold nodeStartIssue
  split
  · exact .same rfl
  all_goals
    split
    · exact .same rfl
    · exact reset s
    · rcases transportOpen_cases s with ⟨-, -, e⟩ | ⟨-, e⟩ <;> rw [e]
      · exact (reset _).of_tx_eq
      · exact .same rfl

theorem nodeUp_txEnds : TxEnds i s (nodeUp s) := by
  unfold nodeUp
  split
  · exact capsRequest_txEnds.of_tx_eq
  · exact .same rfl

theorem nodeStopIssue_txEnds (reset : Bool) : TxEnds i s (nodeStopIssue reset s) := by
  unfold nodeStopIssue
  split
  · exact .same rfl
  · exact .same rfl
  split
  · exact sendFrame_txEnds (by simp [MaySend]) nodeStopSignal_tx
  · exact .same (nodeStopSignal_tx s)

theorem issueChannel_txEnds {ch : Nat} {ranges : List (OperandName × Nat × Nat)} {required : ChanState} {opc : Byte}
    {payload : Except Err Bytes} (ho : MaySend i opc) : TxEnds i s (issueChannel ch ranges required opc payload s) := by
  unfold issueChannel
  split
  · exact .same rfl
  split
  · exact .same rfl
  split
  · exact .same rfl
  split
  · exact .same rfl
  · exact sendFrame_txEnds ho

end

/-! ## Every operation -/

/-- What an operation hands to TX from what its two parts do. -/
theorem onPort_txEnds {i : Instr} {ok : Bool} {issue : State → State} {resume : Phase → State → State} {s t : State}
    (hi : TxEnds i (s.beginOp i) (issue (s.beginOp i))) (hr : ∀ p, TxEnds i s (resume p s))
    (he : onPort i ok issue resume s = .next t) : TxEnds i s t := by
  rcases onPort_cases he with rfl | ⟨q, -, -, -, rfl⟩ | ⟨q, -, -, -, rfl⟩
  · exact .same rfl
  · exact hi.of_tx_eq
  · exact hr q.phase

/-- The step of an operation of one step that is in progress. -/
theorem hold_txEnds {i : Instr} {s : State} (p : Phase) : TxEnds i s (hold p s) := .same rfl

/-- Every operation hands TX at most one frame. -/
theorem exec_txEnds {i : Instr} {s t : State} (hc : i.isCommand = true) (he : exec i s = .next t) : TxEnds i s t := by
  cases i <;> try exact absurd hc Bool.false_ne_true
  all_goals simp only [exec] at he; refine onPort_txEnds ?_ ?_ he; clear he
  all_goals try exact hold_txEnds
  case chAssign.refine_1 | chSetid.refine_1 | chSetto.refine_1 | chSetper.refine_1 | chSetfreq.refine_1
      | chOpen.refine_1 | chClose.refine_1 | chUnassign.refine_1 =>
    exact issueChannel_txEnds (by simp [MaySend])
  case chAssign.refine_2 | chSetid.refine_2 | chSetto.refine_2 | chSetper.refine_2 | chSetfreq.refine_2
      | chOpen.refine_2 | chUnassign.refine_2 =>
    exact fun p => .same (channelResume_tx _ _ _ p s)
  case chClose.refine_2 =>
    intro p; split
    · exact .same (channelAcked_tx _ _ s)
    · exact .same (takeMsg_tx s closeTaken_tx)
    · exact .same rfl
  case chReg.refine_1 | chUnreg.refine_1 => exact .same (changeCallbacks_tx _ _ _)
  case msgNew.refine_1 =>
    split
    · exact .same rfl
    split <;> exact .same rfl
  case msgSetop.refine_1 | msgSetpay.refine_1 | msgDecode.refine_1 | varBuild.refine_1 => split <;> exact .same rfl
  case msgEncode.refine_1 | msgChecksum.refine_1 => exact .same (withMessage_tx _)
  case msgResolve.refine_1 | msgResolveMr.refine_1 =>
    split
    · exact .same rfl
    · exact .same (respondKind_tx _ _)
  case varGet.refine_1 =>
    refine .same (withField_tx _ fun k o ty u => ?_)
    split
    · rfl
    split <;> rfl
  case varSet.refine_1 =>
    refine .same (withField_tx _ fun k o ty u => ?_)
    dsimp only
    split
    · rfl
    split
    · rfl
    split <;> rfl
  case pumpStart.refine_1 | pumpStop.refine_1 | pumpWaitack.refine_1 | pumpWaitmsg.refine_1 => split <;> exact .same rfl
  case pumpStart.refine_2 | pumpStop.refine_2 =>
    intro p; split
    · split <;> exact .same rfl
    · exact .same rfl
  case pumpReg.refine_1 | pumpUnreg.refine_1 => exact .same rfl
  case pumpWrite.refine_1 =>
    unfold withMessage
    split
    · exact sendFrame_txEnds (fun h => absurd rfl h)
    · exact .same rfl
  case pumpWaitack.refine_2 =>
    intro p
    cases p with
    | waitAck => exact .same (takeAck_tx s)
    | _ => exact .same rfl
  case pumpWaitmsg.refine_2 =>
    intro p; split
    · exact .same (takeMsg_tx s)
    · exact .same rfl
  case nodeStart.refine_1 => exact nodeStartIssue_txEnds
  case nodeStart.refine_2 =>
    intro p
    cases p with
    | settle =>
      refine .same ?_
      dsimp only [nodeSettled]
      split <;> rfl
    | waitPumpUp => exact nodeUp_txEnds
    | waitMsg | negKeys | waitAck => exact capsResume_txEnds _
    | idle | waitClosed | waitPumpDown | faulted => exact .same rfl
  case nodeStop.refine_1 => exact nodeStopIssue_txEnds _
  case nodeStop.refine_2 =>
    intro p; split
    · refine .same ?_
      unfold nodeDown
      split
      · rfl
      · exact nodeStopFinish_tx (s.withPump s.pump.confirmStop)
    · exact .same rfl
  case nodeCaps.refine_1 => exact capsRequest_txEnds
  case nodeCaps.refine_2 => exact fun p => capsResume_txEnds p
  case nodeSetkey.refine_1 => exact issueSetKey_txEnds _ _
  case nodeSetkey.refine_2 =>
    intro p; split
    · exact .same (keyAcked_tx _ s)
    · exact .same rfl
  case nodeFreech.refine_1 | nodeGetkey.refine_1 => split <;> exact .same rfl

/-- Settles O34: a frame instruction writes the pump only, and `exec_txEnds` says how TX ends for an operation. -/
theorem txCarriesWholeFrames : Obligations.TxCarriesWholeFrames := by
  intro i s t he
  cases hc : i.isCommand with
  | false =>
    obtain ⟨p, rfl⟩ := exec_frame hc he
    exact .inl rfl
  | true =>
    cases exec_txEnds hc he with
    | same h => exact .inl h
    | frame opc pay ho h => exact .inr ⟨opc, pay, h, ho⟩

end Sys2Proof.Machine
end

section
/-! PROOFS for 20_memory.md. Field writes (O44): a setter answers the value's error, then the bounds error, else the written field. -/

namespace Sys2Proof.Machine

open Sys2Proof.Claims

/-- A setter whose value has an error exactly if `bad`, and finds the payload too short exactly if `short`. -/
theorem exec_varSet_of_hasField {s : State} {opc : Byte} {pay pay' : Bytes} {k : Kind} {f : FieldName} {o : Nat}
    {ty : FieldType} {v : Value} {e : Err} {bad short : Prop} [Decidable bad] [Decidable short] (hp : PortIdle s)
    (hmr : s.mr = { opcode := some opc, payload := some pay }) (hr : resolve s.cfg opc = some k) (hf : HasField k f o ty)
    (hv : OfSort ty v) (he : ty.valueError f o v = if bad then some e else none)
    (hw : ¬ bad → writeField k f o ty v pay = if short then none else some pay') :
    exec (.varSet f v) s = .next (
      if bad then failed s e
      else if short then failed s (.fieldOutOfBounds f)
      else succeeded { s with mr := { opcode := some opc, payload := some pay' } } .nothing) := by
  have hopc : s.mr.opcode = some opc := by rw [hmr]
  by_cases hb : bad
  · rw [if_pos hb] at he ⊢
    exact exec_varSet_of_valueError hp f hopc hr hf hv he
  · specialize hw hb
    rw [if_neg hb] at he ⊢
    rw [exec, execVarSet, acceptsField_of_hasField hopc hr hf, (takes_iff_ofSort ty v).2 hv, onPort_issue hp,
      withField_of_hasField (s := s.beginOp _) hopc hr hf]
    simp only [he, State.beginOp_mr, hmr, hw]
    by_cases hs : short
    · rw [if_pos hs, if_pos hs]
      exact congrArg _ (raise_beginOp s _ _)
    · rw [if_neg hs, if_neg hs]
      exact congrArg _ (ok_beginOp (s.withMr { opcode := some opc, payload := some pay' }) _ _)

/-! ## The bytes a field write leaves -/

section
variable {k : Kind} {f : FieldName} {o : Nat} {pay : Bytes}

theorem writeField_byte (v : Nat) (h : ¬ (k = .capabilities ∧ f = .advOpts2)) :
    writeField k f o .byte (.num v) pay =
      if pay.length < o + 1 then none else some (pay.take o ++ [BitVec.ofNat 8 v] ++ pay.drop (o + 1)) :=
  if_neg fun ⟨hk, hf, _⟩ => h ⟨hk, hf⟩

/-- `advOpts2` of CAPABILITIES extends a payload of 4 bytes (41_variants.md R170). -/
theorem writeField_advOpts2 (v : Nat) :
    writeField .capabilities .advOpts2 4 .byte (.num v) pay =
      if pay.length < 4 then none else some (pay.take 4 ++ [BitVec.ofNat 8 v] ++ pay.drop 5) := by
  by_cases h4 : pay.length = 4
  · have htake : pay.take 4 = pay := List.take_of_length_le h4.le
    have hdrop : pay.drop 5 = [] := List.drop_of_length_le (by omega)
    simp [writeField, h4, FieldType.valueBytes, htake, hdrop]
  · have hlt : pay.length < 4 + 1 ↔ pay.length < 4 := by omega
    simp [writeField, h4, hlt, FieldType.valueBytes, overwrite]

theorem writeField_word (v : Nat) :
    writeField k f o .word (.num v) pay =
      if pay.length < o + 2 then none
      else some (pay.take o ++ [BitVec.ofNat 8 v, BitVec.ofNat 8 (v / 256)] ++ pay.drop (o + 2)) := rfl

theorem writeField_fixed {n : Nat} {v : Bytes} (h : v.length = n) :
    writeField k f o (.fixed n) (.bytes v) pay =
      if pay.length < o + n then none else some (pay.take o ++ v ++ pay.drop (o + n)) := by
  subst h; rfl

theorem writeField_rest (v : Bytes) :
    writeField k f o .rest (.bytes v) pay = if pay.length < o then none else some (pay.take o ++ v) := rfl

end

/-- `advOpts2` of CAPABILITIES is the byte at offset 4. -/
theorem hasField_advOpts2 {o : Nat} {ty : FieldType} (h : HasField .capabilities .advOpts2 o ty) : o = 4 ∧ ty = .byte := by
  simpa [HasField, fieldsOf] using h

/-- Settles O44: the refusals, then one clause for each type of field. -/
theorem fieldWrites : Obligations.FieldWrites := by
  intro s opc pay f hp hmr
  have hopc : s.mr.opcode = some opc := by rw [hmr]
  refine ⟨fun hr v => exec_varSet_of_unresolved hp f hopc v hr, fun k hr =>
    ⟨fun hf v => exec_varSet_of_noField hp f hopc hr v hf, fun o ty hf =>
      ⟨fun v => exec_varSet_of_not_ofSort hp f hopc hr hf, ?_, ?_, ?_, ?_, ?_⟩⟩⟩
  · rintro v rfl hno
    exact exec_varSet_of_hasField hp hmr hr hf trivial rfl fun _ => writeField_byte v hno
  · rintro v rfl rfl
    obtain ⟨rfl, rfl⟩ := hasField_advOpts2 hf
    exact exec_varSet_of_hasField hp hmr hr hf trivial rfl fun _ => writeField_advOpts2 v
  · rintro v rfl
    exact exec_varSet_of_hasField hp hmr hr hf trivial rfl fun _ => writeField_word v
  · rintro n v rfl
    exact exec_varSet_of_hasField hp hmr hr hf trivial rfl fun hlen => writeField_fixed (not_not.1 hlen)
  · rintro v rfl
    exact exec_varSet_of_hasField hp hmr hr hf trivial rfl fun _ => writeField_rest v

end Sys2Proof.Machine
end

section
/-! PROOFS for 20_memory.md. The pump operations that wait: the handshakes (O46) and the two takes (O49). -/

namespace Sys2Proof.Machine

open Sys2Proof.Claims

/-- Settles O46. -/
theorem pumpHandshakes : Obligations.PumpHandshakes := by
  intro s
  refine ⟨fun hp => ⟨?_, ?_⟩, fun hp => ?_, fun hp => ?_⟩
  · rw [exec, execPumpStart, onPort_issue hp]
    simp only [State.beginOp_pump, ok_beginOp]
    split
    · rfl
    · exact congrArg _ (setPhase_beginOp (s.withPump s.pump.spawn) _ _)
  · rw [exec, execPumpStop, onPort_issue hp]
    simp only [State.beginOp_pump, ok_beginOp]
    by_cases hrun : s.pump.running = true
    · rw [if_pos hrun, if_neg (by simp [hrun])]
      exact congrArg _ (setPhase_beginOp (s.withPump s.pump.signalStop) _ _)
    · rw [if_neg hrun, if_pos (by simpa using hrun)]
  · rw [exec, execPumpStart, onPort_resume hp Phase.noConfusion]
    rfl
  · rw [exec, execPumpStop, onPort_resume hp Phase.noConfusion]
    rfl

/-! ## The kinds and their numbers -/

theorem kindOfNumber_number (k : Kind) : kindOfNumber k.number = some k := by cases k <;> rfl

/-- The numbers of kinds are 0 to 20 (30_encoding.md R89). -/
theorem kindOfNumber_eq_none_iff (n : Nat) : kindOfNumber n = none ↔ 20 < n := by
  rw [kindOfNumber, List.getElem?_eq_none_iff]
  exact Nat.succ_le_iff

/-- Settles O49: the issue of both waits, and what the takes answer. -/
theorem waitsTakeAMatch : Obligations.WaitsTakeAMatch := by
  intro s
  refine ⟨fun opc hp => ?_, fun opc hp => ?_, fun n hp => ?_, fun k hp => ?_⟩
  · rw [exec, execPumpWaitack, onPort_issue hp]
    simp only [raise_beginOp, setPhase_beginOp]
  · rw [exec, execPumpWaitack, onPort_resume hp Phase.noConfusion]
    exact ⟨fun a e b h => congrArg _ (takeAck_of_firstIn h _), fun h => congrArg _ (takeAck_of_no_ack h _)⟩
  · rw [exec, execPumpWaitmsg, onPort_issue hp]
    simp only [raise_beginOp, setPhase_beginOp]
    cases hk : kindOfNumber n with
    | none => rw [if_pos ((kindOfNumber_eq_none_iff n).1 hk)]
    | some k => rw [if_neg (mt (kindOfNumber_eq_none_iff n).2 (by simp [hk]))]
  · rw [exec, execPumpWaitmsg, onPort_resume hp Phase.noConfusion, kindOfNumber_number]
    exact ⟨fun a e b h => congrArg _ (takeMsg_of_firstIn h _), fun h => congrArg _ (takeMsg_of_no_message h _)⟩

end Sys2Proof.Machine
end

section
/-! PROOFS for 20_memory.md. Starting and stopping the node: the steps of NODE.START (O50) and NODE.STOP (O51). -/

namespace Sys2Proof.Machine

open Sys2Proof.Claims

/-! ## The frames the node writes -/

/-- The frame of SYSTEM_RESET (41_variants.md R159). -/
theorem encodeF_reset : encodeF 0x4A resetPayload = [0xA4, 0x01, 0x4A, 0x00, 0xEF] := by decide

/-- The frame of the capabilities request (43_node.md R255). -/
theorem encodeF_capabilitiesRequest : encodeF 0x4D capabilitiesRequest = [0xA4, 0x02, 0x4D, 0x00, 0x54, 0xBF] := by decide

section
variable {s : State} {n : Nat}

/-! ## Step C1 -/

theorem capsRequest_of_not_running (h : s.node.state ≠ .running) : capsRequest s = s.raise .notStarted := by
  unfold capsRequest
  split
  · rfl
  · rfl
  · next hs => exact absurd hs h

theorem capsRequest_of_running (h : s.node.state = .running) :
    capsRequest s = sendFrame 0x4D capabilitiesRequest (fun t => t.setPhase .waitMsg) s := by
  simp only [capsRequest, h]

/-! ## Step S1 -/

theorem nodeStartIssue_of_running (h : s.node.state = .running) : nodeStartIssue s = s.raise .alreadyStarted := by
  simp only [nodeStartIssue, h]

theorem transportIsOpen_of_done (h : s.turn.answers.isOpen = .done) : s.transportIsOpen = some s.env.tOpen := by
  simp only [State.transportIsOpen, h]

theorem transportOpen_of_done (ho : s.env.tOpen = false) (h : s.turn.answers.opening = .done) :
    s.transportOpen = (.done, transportOpened s) := by
  rcases transportOpen_cases s with ⟨-, -, e⟩ | ⟨hno, -⟩
  · exact e
  · simp [ho, h] at hno

theorem transportOpen_of_error (h : s.turn.answers.opening = .error) : s.transportOpen = (.error, traced s .opening) := by
  rcases transportOpen_cases s with ⟨-, hdone, -⟩ | ⟨-, e⟩
  · simp [h] at hdone
  · exact e

/-- The reset frame on a transport that is open or has been opened. -/
def startReset (s : State) : State := sendReset (fun t => t.setPhase .settle) s

section
variable (hn : s.node.state ≠ .running)
include hn

/-- On a node that does not run S1 asks whether the transport is open. -/
theorem nodeStartIssue_of_isOpen_error (h : s.turn.answers.isOpen = .error) : nodeStartIssue s = s.raise .transportError := by
  have hi : s.transportIsOpen = none := by simp only [State.transportIsOpen, h]
  cases hs : s.node.state with
  | running => exact absurd hs hn
  | notStarted | stopped => simp only [nodeStartIssue, hs, hi]

theorem nodeStartIssue_of_open (h : s.turn.answers.isOpen = .done) (ho : s.env.tOpen = true) :
    nodeStartIssue s = startReset s := by
  have hi : s.transportIsOpen = some true := by rw [transportIsOpen_of_done h, ho]
  cases hs : s.node.state with
  | running => exact absurd hs hn
  | notStarted | stopped => simp only [nodeStartIssue, hs, hi, startReset]

variable (h : s.turn.answers.isOpen = .done) (ho : s.env.tOpen = false)
include h ho

theorem nodeStartIssue_of_opening_error (ha : s.turn.answers.opening = .error) :
    nodeStartIssue s = (traced s .opening).raise .transportError := by
  have hi : s.transportIsOpen = some false := by rw [transportIsOpen_of_done h, ho]
  cases hs : s.node.state with
  | running => exact absurd hs hn
  | notStarted | stopped => simp only [nodeStartIssue, hs, hi, transportOpen_of_error ha]

theorem nodeStartIssue_of_opening_done (ha : s.turn.answers.opening = .done) :
    nodeStartIssue s = startReset (transportOpened s) := by
  have hi : s.transportIsOpen = some false := by rw [transportIsOpen_of_done h, ho]
  cases hs : s.node.state with
  | running => exact absurd hs hn
  | notStarted | stopped => simp only [nodeStartIssue, hs, hi, transportOpen_of_done ho ha, startReset]

end

/-- The reset frame of an issued NODE.START is written and the start settles, or `TransportError` ends it. -/
theorem startReset_beginOp_of_writable (h : Writable s n) (i : Instr) :
    startReset (s.beginOp i) = waiting (sent s [0xA4, 0x01, 0x4A, 0x00, 0xEF] n) i .settle := by
  rw [startReset, sendReset, sendFrame_beginOp_of_writable h, encodeF_reset, setPhase_beginOp]

theorem startReset_beginOp_of_unwritable (h : Unwritable s) (i : Instr) :
    startReset (s.beginOp i) = failed (notSent s [0xA4, 0x01, 0x4A, 0x00, 0xEF]) .transportError := by
  rw [startReset, sendReset, sendFrame_beginOp_of_unwritable h, encodeF_reset]

/-! ## Step S3 -/

/-- The node marked `Running`. -/
def State.nodeRunning (s : State) : State := s.withNode { s.node with state := .running }

theorem nodeUp_of_not_alive (h : s.pump.alive = false) : nodeUp s = s := by rw [nodeUp, h]; rfl

/-- With the worker alive S3 goes on with C1 on a node that runs. -/
theorem nodeUp_of_alive (h : s.pump.alive = true) :
    nodeUp s = sendFrame 0x4D capabilitiesRequest (fun t => t.setPhase .waitMsg) s.nodeRunning := by
  rw [nodeUp, if_pos h]
  exact capsRequest_of_running (s := s.nodeRunning) rfl

theorem nodeUp_of_writable (h : s.pump.alive = true) (hw : Writable s n) :
    nodeUp s = inPhase (sent s.nodeRunning [0xA4, 0x02, 0x4D, 0x00, 0x54, 0xBF] n) .waitMsg := by
  rw [nodeUp_of_alive h, sendFrame_of_writable (s := s.nodeRunning) hw, encodeF_capabilitiesRequest]
  rfl

theorem nodeUp_of_unwritable (h : s.pump.alive = true) (hw : Unwritable s) :
    nodeUp s = failed (notSent s.nodeRunning [0xA4, 0x02, 0x4D, 0x00, 0x54, 0xBF]) .transportError := by
  rw [nodeUp_of_alive h, sendFrame_of_unwritable (s := s.nodeRunning) hw, encodeF_capabilitiesRequest]

/-! ## Steps of NODE.STOP -/

/-- The node marked `Stopped`. -/
def State.nodeStopped (s : State) : State := s.withNode { s.node with state := .stopped }

theorem transportClose_of_closable (h : Closable s) : s.transportClose = (.done, transportClosed s) := by
  rcases transportClose_cases s with ⟨-, -, e⟩ | ⟨hno, -⟩
  · exact e
  · simp [h.1, h.2] at hno

theorem transportClose_of_unclosable (h : Unclosable s) : s.transportClose = (.error, traced s .closing) := by
  rcases transportClose_cases s with ⟨ho, hdone, -⟩ | ⟨-, e⟩
  · simp [Unclosable, ho, hdone] at h
  · exact e

theorem nodeStopFinish_of_closable (h : Closable s) :
    nodeStopFinish s = succeeded (transportClosed s.nodeStopped) .nothing := by
  rw [nodeStopFinish, transportClose_of_closable (s := s.withNode { s.node with state := .stopped }) h]
  rfl

theorem nodeStopFinish_of_unclosable (h : Unclosable s) :
    nodeStopFinish s = failed (traced s.nodeStopped .closing) .transportError := by
  rw [nodeStopFinish, transportClose_of_unclosable (s := s.withNode { s.node with state := .stopped }) h]
  rfl

/-- T2 waits for the worker to end, and T3 follows in the same step. -/
theorem nodeDown_of_alive (h : s.pump.alive = true) : nodeDown s = s := if_pos h

theorem nodeDown_of_not_alive (h : s.pump.alive = false) : nodeDown s = nodeStopFinish (s.withPump s.pump.confirmStop) :=
  if_neg (by simp [h])

/-- After the reset frame an issued NODE.STOP signals the worker, or with no pump running ends with the close. -/
theorem nodeStopSignal_beginOp_of_running (h : s.pump.running = true) (i : Instr) :
    nodeStopSignal (s.beginOp i) = waiting (s.withPump s.pump.signalStop) i .waitPumpDown := by
  rw [nodeStopSignal, State.beginOp_pump, if_pos h]
  exact setPhase_beginOp (s.withPump s.pump.signalStop) i _

theorem nodeStopSignal_beginOp_of_closable (h : s.pump.running = false) (hc : Closable s) (i : Instr) :
    nodeStopSignal (s.beginOp i) = succeeded (transportClosed s.nodeStopped) .nothing := by
  rw [nodeStopSignal, State.beginOp_pump, if_neg (by simp [h]), nodeStopFinish_of_closable (s := s.beginOp i) hc]
  exact ok_beginOp (transportClosed s.nodeStopped) i _

theorem nodeStopSignal_beginOp_of_unclosable (h : s.pump.running = false) (hc : Unclosable s) (i : Instr) :
    nodeStopSignal (s.beginOp i) = failed (traced s.nodeStopped .closing) .transportError := by
  rw [nodeStopSignal, State.beginOp_pump, if_neg (by simp [h]), nodeStopFinish_of_unclosable (s := s.beginOp i) hc]
  exact raise_beginOp (traced s.nodeStopped .closing) i _

theorem nodeStopIssue_of_not_running (h : s.node.state ≠ .running) (reset : Bool) :
    nodeStopIssue reset s = s.raise .notStarted := by
  unfold nodeStopIssue
  split
  · rfl
  · rfl
  · next hs => exact absurd hs h

theorem nodeStopIssue_of_running (h : s.node.state = .running) (reset : Bool) :
    nodeStopIssue reset s = if reset then sendReset nodeStopSignal s else nodeStopSignal s := by
  simp only [nodeStopIssue, h]

/-- A reset left out means true (R253). -/
theorem getD_true_eq_true {r : Option Bool} (h : r ≠ some false) : r.getD true = true := by
  cases r with
  | none => rfl
  | some b =>
    cases b with
    | false => exact absurd rfl h
    | true => rfl

/-- Step T1 up to the signal: nothing is written where reset is false, else the reset frame. -/
theorem exec_nodeStop_signals {r : Option Bool} (hp : PortIdle s) (hs : s.node.state = .running)
    (h : r = some false ∨ Writable s n) :
    exec (.nodeStop r) s = .next (nodeStopSignal
      (State.beginOp (if r = some false then s else sent s [0xA4, 0x01, 0x4A, 0x00, 0xEF] n) (.nodeStop r))) := by
  rw [exec, execNodeStop, onPort_issue hp, nodeStopIssue_of_running (s := s.beginOp _) hs]
  by_cases hr : r = some false
  · subst hr
    rfl
  · rw [if_neg hr, if_pos (getD_true_eq_true hr), sendReset, sendFrame_beginOp_of_writable (h.resolve_left hr), encodeF_reset]

end

/-- Settles O50: S1 by the answers of the transport, then S2, then S3 with C1. -/
theorem nodeStartSteps : Obligations.NodeStartSteps := by
  intro s n
  refine ⟨fun hp hs => ?_, fun hp hs => ⟨fun hi => ?_, fun hi ho => ⟨fun hw => ?_, fun hw => ?_⟩,
    fun hi ho => ⟨fun ha => ?_, fun ha hw => ?_, fun ha hw => ?_⟩⟩, fun hp => ?_,
    fun hp => ⟨fun hd => ?_, fun hu hw => ?_, fun hu hw => ?_⟩⟩
  · rw [exec, execNodeStart, onPort_issue hp, nodeStartIssue_of_running (s := s.beginOp _) hs, raise_beginOp]
  · rw [exec, execNodeStart, onPort_issue hp, nodeStartIssue_of_isOpen_error (s := s.beginOp _) hs hi, raise_beginOp]
  · rw [exec, execNodeStart, onPort_issue hp, nodeStartIssue_of_open (s := s.beginOp _) hs hi ho,
      startReset_beginOp_of_writable ⟨ho, hw⟩]
  · rw [exec, execNodeStart, onPort_issue hp, nodeStartIssue_of_open (s := s.beginOp _) hs hi ho,
      startReset_beginOp_of_unwritable (.inr hw)]
  · rw [exec, execNodeStart, onPort_issue hp, nodeStartIssue_of_opening_error (s := s.beginOp _) hs hi ho ha]
    exact congrArg _ (raise_beginOp (traced s .opening) _ _)
  · rw [exec, execNodeStart, onPort_issue hp, nodeStartIssue_of_opening_done (s := s.beginOp _) hs hi ho ha]
    exact congrArg _ (startReset_beginOp_of_writable (s := transportOpened s) ⟨rfl, hw⟩ _)
  · rw [exec, execNodeStart, onPort_issue hp, nodeStartIssue_of_opening_done (s := s.beginOp _) hs hi ho ha]
    exact congrArg _ (startReset_beginOp_of_unwritable (s := transportOpened s) (.inr hw) _)
  · rw [exec, execNodeStart, onPort_resume hp Phase.noConfusion]
    rfl
  · rw [exec, execNodeStart, onPort_resume hp Phase.noConfusion]
    exact congrArg _ (nodeUp_of_not_alive hd)
  · rw [exec, execNodeStart, onPort_resume hp Phase.noConfusion]
    exact congrArg _ (nodeUp_of_writable hu hw)
  · rw [exec, execNodeStart, onPort_resume hp Phase.noConfusion]
    exact congrArg _ (nodeUp_of_unwritable hu hw)

/-- Settles O51: T1 by the node's state and the reset operand, then T2 and T3. -/
theorem nodeStopSteps : Obligations.NodeStopSteps := by
  intro s r n
  refine ⟨fun hp hs => ?_, fun hp hs hr hw => ?_, fun hp hs hw => ?_,
    fun hp => ⟨fun ha => ?_, fun ha hc => ?_, fun ha hc => ?_⟩⟩
  · rw [exec, execNodeStop, onPort_issue hp, nodeStopIssue_of_not_running (s := s.beginOp _) hs, raise_beginOp]
  · rw [exec, execNodeStop, onPort_issue hp, nodeStopIssue_of_running (s := s.beginOp _) hs, if_pos (getD_true_eq_true hr),
      sendReset, sendFrame_beginOp_of_unwritable hw, encodeF_reset]
  · rw [exec_nodeStop_signals hp hs hw]
    split
    · exact ⟨fun hrun => congrArg _ (nodeStopSignal_beginOp_of_running hrun _),
        fun hrun hc => congrArg _ (nodeStopSignal_beginOp_of_closable hrun hc _),
        fun hrun hc => congrArg _ (nodeStopSignal_beginOp_of_unclosable hrun hc _)⟩
    · exact ⟨fun hrun => congrArg _ (nodeStopSignal_beginOp_of_running (s := sent s _ n) hrun _),
        fun hrun hc => congrArg _ (nodeStopSignal_beginOp_of_closable (s := sent s _ n) hrun hc _),
        fun hrun hc => congrArg _ (nodeStopSignal_beginOp_of_unclosable (s := sent s _ n) hrun hc _)⟩
  · rw [exec, execNodeStop, onPort_resume hp Phase.noConfusion]
    exact congrArg _ (nodeDown_of_alive ha)
  · rw [exec, execNodeStop, onPort_resume hp Phase.noConfusion]
    refine congrArg _ ((nodeDown_of_not_alive ha).trans ?_)
    exact nodeStopFinish_of_closable (s := s.withPump s.pump.confirmStop) hc
  · rw [exec, execNodeStop, onPort_resume hp Phase.noConfusion]
    refine congrArg _ ((nodeDown_of_not_alive ha).trans ?_)
    exact nodeStopFinish_of_unclosable (s := s.withPump s.pump.confirmStop) hc

end Sys2Proof.Machine
end

section
/-! PROOFS for 20_memory.md. Capability negotiation (O52) and the network keys (O53). Both push keys by the steps K1 and K2, which are
stated once for any slot. -/

namespace Sys2Proof.Machine

open Sys2Proof.Claims

/-! ## The sequencer in turn -/

section
variable {s : State} {n i idx : Nat} {a b : List Entry} {e : Entry} {slot : NetSlot}

theorem seq_i_of_counterIs (h : CounterIs s i) : s.seq.i = i := by
  obtain ⟨q, hq, rfl⟩ := Option.map_eq_some_iff.1 h
  rw [State.seq_of_getElem? hq]

/-- Two changes of the sequencer in turn that agree on it are the same. -/
theorem modifySeq_congr {q : Seq} (hq : s.seqs[s.turn.port]? = some q) {f g : Seq → Seq} (h : f q = g q) :
    s.modifySeq f = s.modifySeq g := by
  rw [State.modifySeq, State.modifySeq]
  congr 1
  refine List.ext_getElem? fun j => ?_
  rw [List.getElem?_modify, List.getElem?_modify]
  split
  · next hj =>
    rw [← hj, hq]
    exact congrArg some h
  · rfl

/-! ## Step K1 -/

/-- The request of a NETWORK_KEY command (41_variants.md R157). -/
def keyMessage (idx : Nat) (key : Bytes) : Message := { opcode := 0x46, payload := BitVec.ofNat 8 idx :: key }

/-- A caller that waits for the ack of a key it has sent. -/
def awaitKeyAck (idx : Nat) (key : Bytes) (s : State) : State := (s.setReq (keyMessage idx key)).setPhase .waitAck

theorem issueSetKey_of_out_of_range (h : s.node.nets.length ≤ idx) (r : Option (Bytes × Bytes)) :
    issueSetKey idx r s = s.raise (.valueOutOfRange .index) := if_pos h

theorem issueSetKey_of_wrong_length (h : idx < s.node.nets.length) (name : Bytes) {key : Bytes} (hk : key.length ≠ 8) :
    issueSetKey idx (some (name, key)) s = s.raise (.lengthError (.field .key)) := by
  rw [issueSetKey, if_neg (by omega)]
  exact if_pos hk

/-- Past its checks K1 sends the key of the slot, or of the slot as replaced. -/
theorem issueSetKey_of_slot (h : s.node.nets[idx]? = some slot) :
    issueSetKey idx none s = sendFrame 0x46 (BitVec.ofNat 8 idx :: slot.key) (awaitKeyAck idx slot.key) s := by
  have hlt : idx < s.node.nets.length := (List.getElem?_eq_some_iff.1 h).1
  rw [issueSetKey, if_neg (by omega)]
  simp only [pushKey, h]
  rfl

theorem issueSetKey_of_replacement (h : s.node.nets[idx]? = some slot) (name : Bytes) {key : Bytes} (hk : key.length = 8) :
    issueSetKey idx (some (name, key)) s =
      sendFrame 0x46 (BitVec.ofNat 8 idx :: key) (awaitKeyAck idx key) (s.withNode (s.node.setKey idx name key)) := by
  have hlt : idx < s.node.nets.length := (List.getElem?_eq_some_iff.1 h).1
  have hslot : (s.node.setKey idx name key).nets[idx]? = some { slot with name := .text name, key := key } := by
    simp [Node.setKey, h]
  rw [issueSetKey, if_neg (by omega)]
  simp only [hk, ne_eq, not_true_eq_false, if_false, pushKey, State.withNode_node, hslot]
  rfl

/-- The end of an issued K1 whose write succeeds. -/
theorem awaitKeyAck_beginOp (key : Bytes) (op : Instr) :
    awaitKeyAck idx key ((sent s (encodeF 0x46 (BitVec.ofNat 8 idx :: key)) n).beginOp op) =
      commanded s op (keyMessage idx key) none n := by
  rw [awaitKeyAck, State.beginOp_eq, State.setReq_eq, State.setPhase_eq, State.modifySeq_modifySeq, State.modifySeq_modifySeq]
  rfl

/-- The same in an operation in progress. -/
theorem awaitKeyAck_eq (key : Bytes) : awaitKeyAck idx key s =
    s.modifySeq fun q => { q with phase := .waitAck, req := some (keyMessage idx key) } := by
  rw [awaitKeyAck, State.setReq_eq, State.setPhase_eq, State.modifySeq_modifySeq]
  rfl

/-! ## Step K2 -/

theorem keyAcked_of_success (h : FirstIn (IsAckOf 0x46) s.pump.ackQ a e b) (hc : e.payload.getD 2 0 = s.cfg.responseNoError)
    (go : State → State) : keyAcked idx go s = go ((ackTaken s a b).withNode (s.node.stamp idx)) :=
  (takeAck_of_firstIn h _).trans (if_neg (not_not.2 hc))

theorem keyAcked_of_failure (h : FirstIn (IsAckOf 0x46) s.pump.ackQ a e b) (hc : e.payload.getD 2 0 ≠ s.cfg.responseNoError)
    (go : State → State) : keyAcked idx go s = failed (ackTaken s a b) (.nodeError .setNetworkKey) :=
  (takeAck_of_firstIn h _).trans (if_pos hc)

theorem keyAcked_of_no_ack (h : ∀ e ∈ s.pump.ackQ, ¬ IsAckOf 0x46 e) (go : State → State) : keyAcked idx go s = s :=
  takeAck_of_no_ack h _

/-! ## Steps C3, C4 and C5 -/

/-- While keys are left C3 is the K1 of the slot the counter names. -/
theorem capsPush_of_keys_left {m : Byte} (hi : CounterIs s i) (hm : s.node.maxNetworks = some m) (hne : i ≠ m.toNat) :
    capsPush s = issueSetKey i none s := by
  simp only [capsPush, hm, seq_i_of_counterIs hi, hne, if_false]

/-- C4 counts on. -/
theorem capsKeyAcked_of_success (hi : CounterIs s i) (h : FirstIn (IsAckOf 0x46) s.pump.ackQ a e b)
    (hc : e.payload.getD 2 0 = s.cfg.responseNoError) :
    capsKeyAcked s = ((ackTaken s a b).withNode (s.node.stamp i)).modifySeq fun q => { q with i := i + 1, phase := .negKeys } := by
  obtain ⟨q, hq, hqi⟩ := Option.map_eq_some_iff.1 hi
  rw [capsKeyAcked, seq_i_of_counterIs hi, keyAcked_of_success h hc]
  exact modifySeq_congr (s := (ackTaken s a b).withNode _) hq (by rw [hqi])

/-- With every key pushed C5 follows in the same step. -/
theorem capsPush_of_all_pushed {m c : Byte} {q : Seq} (hq : s.seqs[s.turn.port]? = some q) (hi : q.i = m.toNat)
    (hm : s.node.maxNetworks = some m) (hc : s.node.maxChannels = some c) :
    capsPush s = succeeded (recordOptions q.reply (allocateChannels c.toNat s)) .nothing := by
  simp only [capsPush, hm, State.seq_of_getElem? hq, hi, if_true, capsFinish, hc]
  rfl

/-- The two operations that negotiate run the steps after C1 alike. -/
theorem exec_negotiation {op : Instr} {p : Phase} (hop : op ∈ ([.nodeStart, .nodeCaps] : List Instr)) (hp : InPhase s op p)
    (h : p ∈ ([.waitMsg, .negKeys, .waitAck] : List Phase)) : exec op s = .next (capsResume p s) := by
  simp only [List.mem_cons, List.not_mem_nil, or_false] at hop h
  have hbusy : p ≠ .idle := by rcases h with rfl | rfl | rfl <;> exact Phase.noConfusion
  rcases hop with rfl | rfl
  · rw [exec, execNodeStart, onPort_resume hp hbusy]
    rcases h with rfl | rfl | rfl <;> rfl
  · rw [exec, execNodeCaps, onPort_resume hp hbusy]

end

/-- Settles O52: C1 on the port of NODE.CAPS, then the steps both operations share. -/
theorem negotiationSteps : Obligations.NegotiationSteps := by
  intro s n
  refine ⟨fun hp hs => ?_, fun hp hs hw => ?_, fun hp hs hw => ?_, fun op hop =>
    ⟨fun hp a e b hfirst => ?_, fun hp hno => ?_, fun hp i m slot hi hm hne hslot hw => ?_,
      fun hp i m hi hm hne => ⟨fun hlen => ?_, fun slot hslot hw => ?_⟩,
      fun hp i a e b hi hfirst => ⟨fun hc => ?_, fun hc => ?_⟩, fun hp hno => ?_, fun hp m c q hq hi hm hc => ?_⟩⟩
  · rw [exec, execNodeCaps, onPort_issue hp, capsRequest_of_not_running (s := s.beginOp _) hs, raise_beginOp]
  · rw [exec, execNodeCaps, onPort_issue hp, capsRequest_of_running (s := s.beginOp _) hs, sendFrame_beginOp_of_writable hw,
      encodeF_capabilitiesRequest, setPhase_beginOp]
  · rw [exec, execNodeCaps, onPort_issue hp, capsRequest_of_running (s := s.beginOp _) hs, sendFrame_beginOp_of_unwritable hw,
      encodeF_capabilitiesRequest]
  · rw [exec_negotiation hop hp (by simp), capsResume, capsReply, takeMsg_of_firstIn hfirst]
    rfl
  · rw [exec_negotiation hop hp (by simp), capsResume, capsReply, takeMsg_of_no_message hno]
  · rw [exec_negotiation hop hp (by simp), capsResume, capsPush_of_keys_left hi hm hne, issueSetKey_of_slot hslot,
      sendFrame_of_writable hw, awaitKeyAck_eq]
    rfl
  · rw [exec_negotiation hop hp (by simp), capsResume, capsPush_of_keys_left hi hm hne, issueSetKey_of_out_of_range hlen]
    rfl
  · rw [exec_negotiation hop hp (by simp), capsResume, capsPush_of_keys_left hi hm hne, issueSetKey_of_slot hslot,
      sendFrame_of_unwritable hw]
  · rw [exec_negotiation hop hp (by simp), capsResume, capsKeyAcked_of_success hi hfirst hc]
    rfl
  · rw [exec_negotiation hop hp (by simp), capsResume, capsKeyAcked, keyAcked_of_failure hfirst hc]
  · rw [exec_negotiation hop hp (by simp), capsResume, capsKeyAcked, keyAcked_of_no_ack hno]
  · rw [exec_negotiation hop hp (by simp), capsResume, capsPush_of_all_pushed hq hi hm hc]
    rfl

/-- Settles O53: K1 on an `Idle` port, then K2. -/
theorem setKeySteps : Obligations.SetKeySteps := by
  intro s idx rep n
  refine ⟨fun hp hlen => ?_, fun hp name key hlt hk hrep => ?_,
    fun hp slot hslot hw => ⟨fun hrep => ?_, fun name key hrep hk => ?_⟩,
    fun hp slot hslot hw => ⟨fun hrep => ?_, fun name key hrep hk => ?_⟩,
    fun hp => ⟨fun a e b hfirst => ⟨fun hc => ?_, fun hc => ?_⟩, fun hno => ?_⟩⟩
  · rw [exec, execNodeSetkey, onPort_issue hp, issueSetKey_of_out_of_range (s := s.beginOp _) hlen, raise_beginOp]
  · rw [exec, execNodeSetkey, onPort_issue hp, hrep, issueSetKey_of_wrong_length (s := s.beginOp _) hlt name hk, raise_beginOp]
  · rw [exec, execNodeSetkey, onPort_issue hp, hrep, issueSetKey_of_slot (s := s.beginOp _) hslot,
      sendFrame_beginOp_of_writable hw, awaitKeyAck_beginOp]
    rfl
  · rw [exec, execNodeSetkey, onPort_issue hp, hrep, issueSetKey_of_replacement (s := s.beginOp _) hslot name hk]
    refine congrArg _ ((sendFrame_beginOp_of_writable (s := s.withNode (s.node.setKey idx name key)) hw _ _ _ _).trans ?_)
    exact awaitKeyAck_beginOp key _
  · rw [exec, execNodeSetkey, onPort_issue hp, hrep, issueSetKey_of_slot (s := s.beginOp _) hslot,
      sendFrame_beginOp_of_unwritable hw]
  · rw [exec, execNodeSetkey, onPort_issue hp, hrep, issueSetKey_of_replacement (s := s.beginOp _) hslot name hk]
    exact congrArg _ (sendFrame_beginOp_of_unwritable (s := s.withNode (s.node.setKey idx name key)) hw _ _ _ _)
  · rw [exec, execNodeSetkey, onPort_resume hp Phase.noConfusion]
    exact congrArg _ (keyAcked_of_success hfirst hc _)
  · rw [exec, execNodeSetkey, onPort_resume hp Phase.noConfusion]
    exact congrArg _ (keyAcked_of_failure hfirst hc _)
  · rw [exec, execNodeSetkey, onPort_resume hp Phase.noConfusion]
    exact congrArg _ (keyAcked_of_no_ack hno _)

end Sys2Proof.Machine
end

section
/-! PROOFS for 20_memory.md. The waits of the channel commands: step H2 (O57) and the second phase of a close (O58). -/

namespace Sys2Proof.Machine

open Sys2Proof.Claims

section
variable {s : State} {i : Instr} {net ch : Nat} {r : ChanRow} {a b : List Entry} {e : Entry}

/-! ## Step H2 -/

theorem channelAcked_of_failure {opc : Byte} (h : FirstIn (IsAckOf opc.toNat) s.pump.ackQ a e b)
    (hc : e.payload.getD 2 0 ≠ s.cfg.responseNoError) (op : ChannelOp) (go : State → State) :
    channelAcked opc op go s = failed (ackTaken s a b) (.channelError op) :=
  (takeAck_of_firstIn h _).trans (if_pos hc)

theorem channelAcked_of_success {opc : Byte} (h : FirstIn (IsAckOf opc.toNat) s.pump.ackQ a e b)
    (hc : e.payload.getD 2 0 = s.cfg.responseNoError) (op : ChannelOp) (go : State → State) :
    channelAcked opc op go s = go (ackTaken s a b) :=
  (takeAck_of_firstIn h _).trans (if_neg (not_not.2 hc))

theorem channelAcked_of_no_ack {opc : Byte} (h : ∀ e ∈ s.pump.ackQ, ¬ IsAckOf opc.toNat e) (op : ChannelOp)
    (go : State → State) : channelAcked opc op go s = s :=
  takeAck_of_no_ack h _

/-- What a success ack of channel command `i` goes on with: the second phase of a close, or the end (44_channel.md R281, R292). -/
def afterAck (r : ChanRow) : Instr → State → State
  | .chClose _ => fun s => s.setPhase .waitClosed
  | _ => finishChannel r.next

theorem afterAck_of_not_close (h : ∀ c, i ≠ .chClose c) (s : State) : afterAck r i s = finishChannel r.next s := by
  unfold afterAck
  split
  · next c => exact absurd rfl (h c)
  · rfl

/-- Each of the eight commands that waits for its ack takes it with its row's opcode and operation. -/
theorem exec_waitAck (h : chanRow net i = some r) (hp : InPhase s i .waitAck) :
    exec i s = .next (channelAcked r.opc r.op (afterAck r i) s) := by
  cases i <;> cases h
  all_goals
    simp only [exec]
    exact onPort_resume hp Phase.noConfusion _ _ _

/-! ## The slot the sequencer names -/

theorem seq_ch_of_channelIs (h : ChannelIs s ch) : s.seq.ch = some ch := by
  obtain ⟨q, hq, hqc⟩ := Option.map_eq_some_iff.1 h
  rw [State.seq_of_getElem? hq, hqc]

theorem finishChannel_some (h : ChannelIs s ch) (st : ChanState) :
    finishChannel (some st) s = succeeded (chanStateSet s ch st) .nothing := by
  simp only [finishChannel, seq_ch_of_channelIs h]
  rfl

end

/-- Settles O57: the row says what is taken, `afterAck` what follows. -/
theorem channelAckIsTaken : Obligations.ChannelAckIsTaken := by
  intro s i net ch r hrow hp hch
  rw [exec_waitAck hrow hp]
  refine ⟨fun a e b hfirst => ⟨fun hc => ?_, fun hc hne => ?_, fun hc c hi => ?_⟩, fun hno => ?_⟩
  · rw [channelAcked_of_failure hfirst hc]
  · rw [channelAcked_of_success hfirst hc, afterAck_of_not_close hne]
    cases r.next with
    | none => rfl
    | some st => exact congrArg _ (finishChannel_some (s := ackTaken s a b) hch st)
  · rw [channelAcked_of_success hfirst hc, hi]
    rfl
  · rw [channelAcked_of_no_ack hno]

/-- Settles O58: the event is taken, and `closesChannel` says whether it ends the close. -/
theorem closeWaitsForTheClosedEvent : Obligations.CloseWaitsForTheClosedEvent := by
  intro s c ch hp hch
  rw [exec, execChClose, onPort_resume hp Phase.noConfusion]
  refine ⟨fun a e b hfirst => congrArg _ ((takeMsg_of_firstIn hfirst _).trans ?_), fun hno =>
    congrArg _ (takeMsg_of_no_message hno _)⟩
  have hends : closesChannel (msgTaken s a b).cfg e = true ↔
      3 ≤ e.payload.length ∧ e.payload.getD 2 0 = s.cfg.eventChannelClosed := by
    simp [closesChannel, Entry.code, msgTaken]
  simp only [closeTaken, hends, finishChannel_some (s := msgTaken s a b) hch]

end Sys2Proof.Machine
end

section
/-! PROOFS for 30_encoding.md. The opcode map (O6), the checksum (O1), and decoding what was encoded (O7, O8). -/

namespace Sys2Proof

open Sys2Proof.Machine Sys2Proof.Claims

/-! ## The opcode map -/

theorem Kind.mem_all (k : Kind) : k ∈ Kind.all := by cases k <;> decide

/-- The statement's rows are the kinds with the model's numbers and opcodes. -/
theorem mem_opcodeRows_iff {c : Config} {r : OpcodeRow} :
    r ∈ opcodeRows c ↔ ∃ k : Kind, ⟨k.number, k, k.opcode c⟩ = r := by
  have hrows : opcodeRows c = Kind.all.map fun k => ⟨k.number, k, k.opcode c⟩ := rfl
  simp [hrows, Kind.mem_all]

/-- The 19 kinds whose opcode is no parameter, in the order of the map. -/
def fixedKinds : List Kind := Kind.all.filter fun k => k ≠ .channelTxPower ∧ k ≠ .txPower

theorem all_perm_fixedKinds : Kind.all.Perm (.channelTxPower :: .txPower :: fixedKinds) := by decide

theorem map_opcode_fixedKinds (c : Config) : fixedKinds.map (Kind.opcode c) = Config.fixedOpcodes := rfl

/-- Lawful parameters keep the 21 opcodes apart (30_encoding.md R91). -/
theorem nodup_map_opcode {c : Config} (hc : c.wf = true) : (Kind.all.map (Kind.opcode c)).Nodup := by
  have hfixed : Config.fixedOpcodes.Nodup := by decide
  rw [(all_perm_fixedKinds.map _).nodup_iff, List.map_cons, List.map_cons, map_opcode_fixedKinds]
  simp only [Config.wf, Bool.and_eq_true, decide_eq_true_eq, Bool.not_eq_true', List.contains_eq_mem,
    decide_eq_false_iff_not] at hc
  obtain ⟨⟨⟨⟨hne, hchannel⟩, hnode⟩, -⟩, -⟩ := hc
  exact List.nodup_cons.2 ⟨List.not_mem_cons_of_ne_of_not_mem hne hchannel, List.nodup_cons.2 ⟨hnode, hfixed⟩⟩

/-- `resolve` inverts the opcode map (R91, 40_codec.md R130). -/
theorem resolve_eq_some_iff {c : Config} (hc : c.wf = true) (b : Byte) (k : Kind) :
    resolve c b = some k ↔ k.opcode c = b := by
  refine ⟨fun h => by simpa using List.find?_some h, ?_⟩
  rintro rfl
  cases h : resolve c (k.opcode c) with
  | none => simpa using List.find?_eq_none.1 h k k.mem_all
  | some k' =>
    have hk' : k'.opcode c = k.opcode c := by simpa using List.find?_some h
    exact congrArg some (List.inj_on_of_nodup_map (nodup_map_opcode hc) k'.mem_all k.mem_all hk')

/-- Settles O6: the rows are the map of the kinds, which `resolve` inverts. -/
theorem opcodeMapIsOneToOne : Obligations.OpcodeMapIsOneToOne := by
  refine ⟨⟨rfl, rfl⟩, fun c => ⟨rfl, fun k => ⟨_, mem_opcodeRows_iff.2 ⟨k, rfl⟩, rfl⟩, fun r hr => ?_, fun hc =>
    ⟨resolve_eq_some_iff hc, fun r hr => ?_, fun b hb => ?_⟩⟩⟩
  · obtain ⟨k, rfl⟩ := mem_opcodeRows_iff.1 hr
    exact ⟨rfl, rfl⟩
  · obtain ⟨k, rfl⟩ := mem_opcodeRows_iff.1 hr
    exact (resolve_eq_some_iff hc _ k).2 rfl
  · exact Option.eq_none_iff_forall_ne_some.2 fun k hk =>
      hb _ (mem_opcodeRows_iff.2 ⟨k, rfl⟩) ((resolve_eq_some_iff hc b k).1 hk)

/-! ## The checksum -/

/-- The modulo of an update changes 0xFF alone (R84). -/
theorem chkStep_eq (c b : Byte) : chkStep c b = if c ^^^ b = 0xFF then 0x00 else c ^^^ b := by
  split
  · next h => rw [chkStep, h]; rfl
  · next h =>
    have hne : (c ^^^ b).toNat ≠ 255 := fun he => h (BitVec.eq_of_toNat_eq he)
    have hlt : (c ^^^ b).toNat < 255 := by have := (c ^^^ b).isLt; omega
    exact BitVec.eq_of_toNat_eq (Nat.mod_eq_of_lt hlt)

theorem chkStep_ne_allOnes (c b : Byte) : chkStep c b ≠ 0xFF := by
  rw [chkStep_eq]
  split
  · decide
  · assumption

/-- Updates from a value that is not 0xFF never reach it. -/
theorem foldl_chkStep_ne_allOnes (bs : Bytes) {c : Byte} (hc : c ≠ 0xFF) : bs.foldl chkStep c ≠ 0xFF := by
  induction bs generalizing c with
  | nil => exact hc
  | cons b bs ih => exact ih (chkStep_ne_allOnes c b)

theorem chk_ne_allOnes (len opc : Byte) (pay : Bytes) : chk len opc pay ≠ 0xFF :=
  foldl_chkStep_ne_allOnes _ (by decide)

/-! ## Decoding -/

/-- What the checks of 40_codec.md R122 come to: the strings that decode, and as what (R127, R128). -/
theorem decodeF_eq_ok_iff (raw : Bytes) (opc : Byte) (pay : Bytes) (n : Nat) :
    decodeF raw = .ok (opc, pay, n) ↔
      minDecode ≤ raw.length ∧ raw.getD 0 0 = syncByte ∧ (raw.getD 1 0).toNat ≤ maxPayload ∧ n ≤ raw.length
        ∧ n = (raw.getD 1 0).toNat + frameOverhead ∧ opc = raw.getD 2 0
        ∧ pay = (raw.drop 3).take (raw.getD 1 0).toNat ∧ raw.getD (n - 1) 0 = chk (raw.getD 1 0) opc pay := by
  have hlast (m : Nat) : m + frameOverhead - 1 = 3 + m := by simp only [frameOverhead]; omega
  unfold decodeF
  constructor
  · intro h
    split at h
    · cases h
    split at h
    · cases h
    dsimp only at h
    split at h
    · cases h
    split at h
    · cases h
    split at h
    · cases h
    next hmin hsync hmax hlen hchk =>
      cases h
      exact ⟨not_lt.1 hmin, not_not.1 hsync, not_lt.1 hmax, not_lt.1 hlen, rfl, rfl, rfl, hlast _ ▸ (not_not.1 hchk).symm⟩
  · rintro ⟨hmin, hsync, hmax, hlen, rfl, rfl, rfl, hchk⟩
    rw [hlast] at hchk
    rw [if_neg (not_lt.2 hmin), if_neg (not_not.2 hsync)]
    dsimp only
    rw [if_neg (not_lt.2 hmax), if_neg (not_lt.2 hlen), if_neg (not_not.2 hchk.symm)]

/-- Settles O1. -/
theorem checksumIsNeverAllOnes : Obligations.ChecksumIsNeverAllOnes := by
  refine ⟨chkStep_eq, fun len opc pay => ?_, chk_ne_allOnes, fun raw opc pay n h => ?_⟩
  · rw [chk, funext₂ chkStep_eq]
  · obtain ⟨-, -, -, -, -, -, -, hchk⟩ := (decodeF_eq_ok_iff raw opc pay n).1 h
    exact hchk ▸ chk_ne_allOnes _ _ _

theorem encodeF_length (opc : Byte) (pay : Bytes) : (encodeF opc pay).length = pay.length + frameOverhead := by
  simp [encodeF, frameOverhead]

/-- A frame decodes as what was encoded, whatever follows it, as soon as 5 bytes are there (R129, R135, R136). -/
theorem decodeF_encodeF_append (opc : Byte) {pay : Bytes} (rest : Bytes) (hpay : pay.length ≤ maxPayload)
    (hmin : minDecode ≤ (encodeF opc pay).length + rest.length) :
    decodeF (encodeF opc pay ++ rest) = .ok (opc, pay, (encodeF opc pay).length) := by
  have hlen : (BitVec.ofNat 8 pay.length).toNat = pay.length :=
    Nat.mod_eq_of_lt (lt_of_le_of_lt hpay (by decide))
  have hraw : encodeF opc pay ++ rest =
      syncByte :: BitVec.ofNat 8 pay.length :: opc :: (pay ++ chk (BitVec.ofNat 8 pay.length) opc pay :: rest) := by
    simp [encodeF]
  rw [decodeF_eq_ok_iff, List.length_append]
  refine ⟨hmin, ?_, ?_, Nat.le_add_right _ _, ?_, ?_, ?_, ?_⟩
  all_goals rw [hraw]
  · rfl
  · exact hlen.trans_le hpay
  · exact (encodeF_length opc pay).trans (congrArg (· + frameOverhead) hlen.symm)
  · rfl
  · simp [hlen]
  · simp [encodeF_length, frameOverhead]

/-! ## Frame instructions -/

/-- Settles O7: the frame decodes, and its opcode resolves to the instruction's kind. -/
theorem decodeOfEncodeIsTheInstruction : Obligations.DecodeOfEncodeIsTheInstruction := by
  intro c i frame rest hc hwf henc hmin
  cases hi : i.frame? with
  | none => simp [encode, hi] at henc
  | some kp =>
    obtain ⟨k, pay⟩ := kp
    have hframe : encodeF (k.opcode c) pay = frame := by simpa [encode, hi] using henc
    have hpay : pay.length ≤ maxPayload := by simpa [Instr.wellFormed, hi] using hwf
    subst hframe
    have hk : resolve c (k.opcode c) = some k := (resolve_eq_some_iff hc _ k).2 rfl
    simp only [decode, decodeF_encodeF_append _ rest hpay hmin, hk, Instr.eq_ofFrame_of_frame? hi]

/-- Settles O8, by running the decoder on the six strings. -/
theorem writtenFramesDecode : Obligations.WrittenFramesDecode := by
  refine ⟨?_, ?_, ?_, ?_, ?_, ?_⟩ <;> decide

end Sys2Proof
end

section
/-! PROOFS for 30_encoding.md. Field reads: what `VAR.GET` answers (O43), and that a field reads back as set (O45). -/

namespace Sys2Proof.Machine

open Sys2Proof.Claims

/-! ## `VAR.GET` -/

/-- A getter that finds the payload too short exactly if `short`. -/
theorem exec_varGet_of_hasField {s : State} {opc : Byte} {pay : Bytes} {k : Kind} {f : FieldName} {o : Nat} {ty : FieldType}
    {v : Value} {short : Prop} [Decidable short] (hp : PortIdle s) (hmr : s.mr = { opcode := some opc, payload := some pay })
    (hr : resolve s.cfg opc = some k) (hf : HasField k f o ty) (hread : readField o ty pay = if short then none else some v) :
    exec (.varGet f) s = .next (if short then failed s (.fieldOutOfBounds f) else succeeded s (resultOfValue v)) := by
  have hopc : s.mr.opcode = some opc := by rw [hmr]
  rw [exec, execVarGet, acceptsField_of_hasField hopc hr hf, onPort_issue hp,
    withField_of_hasField (s := s.beginOp _) hopc hr hf]
  simp only [State.beginOp_mr, hmr, hread]
  by_cases hs : short
  · rw [if_pos hs, if_pos hs]
    exact congrArg _ (raise_beginOp s _ _)
  · rw [if_neg hs, if_neg hs]
    exact congrArg _ (ok_beginOp s _ _)

/-- Settles O43: the refusals, then one clause for each type of field. -/
theorem fieldReads : Obligations.FieldReads := by
  intro s opc pay f hp hmr
  have hopc : s.mr.opcode = some opc := by rw [hmr]
  exact ⟨fun hr => exec_varGet_of_unresolved hp f hopc hr, fun k hr =>
    ⟨fun hf => exec_varGet_of_noField hp f hopc hr hf,
      fun o hf => exec_varGet_of_hasField (v := .num _) hp hmr hr hf rfl,
      fun o hf => exec_varGet_of_hasField (v := .num _) hp hmr hr hf rfl,
      fun o n hf => exec_varGet_of_hasField (v := .bytes _) hp hmr hr hf rfl,
      fun o hf => exec_varGet_of_hasField (v := .bytes _) hp hmr hr hf rfl⟩⟩

/-! ## Where a field stands -/

/-- A field of type `ty` at offset `o` ends at or before offset `n`; a field of all remaining bytes has no end. -/
def FieldEndsBy (o : Nat) (ty : FieldType) (n : Nat) : Bool :=
  match ty with
  | .byte => o + 1 ≤ n
  | .word => o + 2 ≤ n
  | .fixed w => o + w ≤ n
  | .rest => false

theorem fieldEndsBy_mono {o n m : Nat} {ty : FieldType} (h : FieldEndsBy o ty n = true) (hm : n ≤ m) :
    FieldEndsBy o ty m = true := by
  cases ty with
  | rest => cases h
  | byte | word | fixed => exact decide_eq_true (le_trans (of_decide_eq_true h) hm)

theorem le_of_fieldEndsBy {o n : Nat} {ty : FieldType} (h : FieldEndsBy o ty n = true) : o ≤ n := by
  cases ty with
  | rest => cases h
  | byte | word | fixed => exact le_trans (Nat.le_add_right _ _) (of_decide_eq_true h)

/-- The fields of a variant stand side by side: of two, one ends where the other begins or before. -/
theorem fields_disjoint {k : Kind} {f f' : FieldName} {o o' : Nat} {ty ty' : FieldType} (hf : HasField k f o ty)
    (hf' : HasField k f' o' ty') (hne : f' ≠ f) : FieldEndsBy o ty o' = true ∨ FieldEndsBy o' ty' o = true := by
  have hall : ∀ x ∈ fieldsOf k, ∀ y ∈ fieldsOf k, y.1 ≠ x.1 →
      FieldEndsBy x.2.1 x.2.2 y.2.1 = true ∨ FieldEndsBy y.2.1 y.2.2 x.2.1 = true := by
    cases k <;> decide
  exact hall _ hf _ hf' hne

/-- What a field reads as depends on its own bytes only, and on whether the payload reaches its offset. -/
theorem readField_congr {o : Nat} {ty : FieldType} {pay pay' : Bytes} (hlen : pay'.length < o ↔ pay.length < o)
    (hb : ∀ j, o ≤ j → FieldEndsBy o ty j = false → pay'[j]? = pay[j]?) : readField o ty pay' = readField o ty pay := by
  have hends (j : Nat) (hj : o ≤ j) (he : FieldEndsBy o ty j = false) : pay'.length < j + 1 ↔ pay.length < j + 1 := by
    rw [Nat.lt_succ_iff, Nat.lt_succ_iff, ← List.getElem?_eq_none_iff, ← List.getElem?_eq_none_iff, hb j hj he]
  cases ty with
  | byte =>
    have ho : FieldEndsBy o .byte o = false := by simp [FieldEndsBy]
    simp only [readField, List.getD_eq_getElem?_getD, hends o le_rfl ho, hb o le_rfl ho]
  | word =>
    have ho : FieldEndsBy o .word o = false := by simp [FieldEndsBy]
    have ho1 : FieldEndsBy o .word (o + 1) = false := by simp [FieldEndsBy]
    simp only [readField, List.getD_eq_getElem?_getD, hends (o + 1) (Nat.le_succ o) ho1, hb o le_rfl ho,
      hb (o + 1) (Nat.le_succ o) ho1]
  | fixed n =>
    have hslice : (pay'.drop o).take n = (pay.drop o).take n := by
      refine List.ext_getElem? fun j => ?_
      rw [List.getElem?_take, List.getElem?_take, List.getElem?_drop, List.getElem?_drop]
      split
      · next hj => exact hb (o + j) (Nat.le_add_right o j) (by simpa [FieldEndsBy] using hj)
      · rfl
    have hshort : pay'.length < o + n ↔ pay.length < o + n := by
      cases n with
      | zero => exact hlen
      | succ m => exact hends (o + m) (Nat.le_add_right o m) (by simp [FieldEndsBy])
    simp only [readField, hslice, hshort]
  | rest =>
    have hdrop : pay'.drop o = pay.drop o := by
      refine List.ext_getElem? fun j => ?_
      rw [List.getElem?_drop, List.getElem?_drop, hb (o + j) (Nat.le_add_right o j) rfl]
    simp only [readField, hdrop, hlen]

/-- A field that reads begins within the payload. -/
theorem le_length_of_readField {o : Nat} {ty : FieldType} {v : Value} {pay : Bytes} (h : readField o ty pay = some v) :
    o ≤ pay.length := by
  cases ty
  all_goals
    simp only [readField] at h
    split at h
    · cases h
    · omega

/-! ## A field that has been written -/

/-- What a write leaves behind a field that ends at `n`: nothing, if the field takes all remaining bytes. -/
def bytesBehind (ty : FieldType) (n : Nat) (pay : Bytes) : Bytes :=
  match ty with
  | .rest => []
  | .byte | .word | .fixed _ => pay.drop n

/-- A payload in which the bytes `bs` of a field of type `ty` have been written at offset `o`. -/
def written (o : Nat) (ty : FieldType) (bs pay : Bytes) : Bytes :=
  pay.take o ++ (bs ++ bytesBehind ty (o + bs.length) pay)

section
variable {k : Kind} {f : FieldName} {o : Nat} {ty : FieldType} {v : Value} {bs pay pay' : Bytes}

/-- The four sorts of a field with its value. -/
theorem ofSort_cases (h : OfSort ty v) : (∃ n, ty = .byte ∧ v = .num n) ∨ (∃ n, ty = .word ∧ v = .num n)
    ∨ (∃ w b, ty = .fixed w ∧ v = .bytes b) ∨ ∃ b, ty = .rest ∧ v = .bytes b := by
  cases ty <;> cases v <;> simp [OfSort] at h ⊢

/-- A setter that succeeds writes the value's bytes at the field's offset, which the payload reaches. -/
theorem writeField_eq_some (hf : HasField k f o ty) (hv : OfSort ty v) (hl : ¬ WrongLength o ty v)
    (h : writeField k f o ty v pay = some pay') : o ≤ pay.length ∧ pay' = written o ty (ty.valueBytes v) pay := by
  have of_ite {m : Nat} {p : Bytes} (hm : o ≤ m) (h : (if pay.length < m then none else some p) = some pay') :
      o ≤ pay.length ∧ pay' = p := by
    split at h
    · cases h
    · next hlen => exact ⟨hm.trans (not_lt.1 hlen), (Option.some.inj h).symm⟩
  obtain ⟨n, rfl, rfl⟩ | ⟨n, rfl, rfl⟩ | ⟨w, b, rfl, rfl⟩ | ⟨b, rfl, rfl⟩ := ofSort_cases hv
  · by_cases ha : k = .capabilities ∧ f = .advOpts2
    · obtain ⟨rfl, rfl⟩ := ha
      obtain ⟨rfl, -⟩ := hasField_advOpts2 hf
      rw [writeField_advOpts2, List.append_assoc] at h
      exact of_ite le_rfl h
    · rw [writeField_byte n ha, List.append_assoc] at h
      exact of_ite (Nat.le_succ o) h
  · rw [writeField_word, List.append_assoc] at h
    exact of_ite (Nat.le_add_right o 2) h
  · obtain rfl : b.length = w := not_not.1 hl
    rw [writeField_fixed rfl, List.append_assoc] at h
    exact of_ite (Nat.le_add_right o _) h
  · rw [writeField_rest] at h
    exact (of_ite le_rfl h).imp_right fun hp => hp.trans (by simp [written, bytesBehind, FieldType.valueBytes])

/-- The field at offset `o` is the one in front of what stands from `o` on. -/
theorem readField_eq_drop (ho : o ≤ pay.length) : readField o ty pay = readField 0 ty (pay.drop o) := by
  have hlt (n : Nat) : pay.length - o < n ↔ pay.length < o + n := Nat.sub_lt_iff_lt_add' ho
  cases ty with
  | byte | word => simp [readField, List.getD_eq_getElem?_getD, ← hlt]
  | fixed n => simp [readField, hlt]
  | rest => simp [readField, ho]

theorem readField_written (ho : o ≤ pay.length) : readField o ty (written o ty bs pay) =
    readField 0 ty (bs ++ bytesBehind ty (o + bs.length) pay) := by
  have hpre : (pay.take o).length = o := List.length_take_of_le ho
  rw [written, readField_eq_drop (by simp [hpre]), List.drop_left' hpre]

/-- The bytes of a value read as the value. -/
theorem readField_valueBytes (hv : OfSort ty v) (hr : ¬ TooBig ty v) (hl : ¬ WrongLength o ty v) (n : Nat) :
    readField 0 ty (ty.valueBytes v ++ bytesBehind ty n pay) = some v := by
  obtain ⟨m, rfl, rfl⟩ | ⟨m, rfl, rfl⟩ | ⟨w, b, rfl, rfl⟩ | ⟨b, rfl, rfl⟩ := ofSort_cases hv
  · have hm : m < 256 := Nat.lt_succ_of_le (not_lt.1 hr)
    simpa [readField, FieldType.valueBytes] using hm
  · have hm : m ≤ 65535 := not_lt.1 hr
    have hle16 : m % 256 + 256 * (m / 256 % 256) = m := by omega
    simpa [readField, FieldType.valueBytes, bytesOf16, le16] using hle16
  · obtain rfl : b.length = w := not_not.1 hl
    simp [readField, FieldType.valueBytes]
  · simp [readField, FieldType.valueBytes, bytesBehind]

/-- A value's bytes end where its field does. -/
theorem add_length_valueBytes_le (hv : OfSort ty v) (hl : ¬ WrongLength o ty v) {n : Nat} (h : FieldEndsBy o ty n = true) :
    o + (ty.valueBytes v).length ≤ n := by
  obtain ⟨m, rfl, rfl⟩ | ⟨m, rfl, rfl⟩ | ⟨w, b, rfl, rfl⟩ | ⟨b, rfl, rfl⟩ := ofSort_cases hv
  · exact of_decide_eq_true h
  · exact of_decide_eq_true h
  · obtain rfl : b.length = w := not_not.1 hl
    exact of_decide_eq_true h
  · cases h

/-- A write leaves the bytes in front of the field. -/
theorem getElem?_written_of_lt (ho : o ≤ pay.length) {j : Nat} (hj : j < o) : (written o ty bs pay)[j]? = pay[j]? := by
  rw [written, List.getElem?_append_left (by rw [List.length_take_of_le ho]; exact hj), List.getElem?_take_of_lt hj]

/-- A write leaves the bytes behind a field that has an end. -/
theorem written_eq_of_endsBy {n : Nat} (h : FieldEndsBy o ty n = true) :
    written o ty bs pay = pay.take o ++ (bs ++ pay.drop (o + bs.length)) := by
  cases ty with
  | rest => cases h
  | byte | word | fixed => rfl

theorem getElem?_written_of_endsBy (ho : o ≤ pay.length) {j : Nat} (h : FieldEndsBy o ty j = true) (hj : o + bs.length ≤ j) :
    (written o ty bs pay)[j]? = pay[j]? := by
  have hpre : (pay.take o).length = o := List.length_take_of_le ho
  rw [written_eq_of_endsBy h, List.getElem?_append_right (by omega), List.getElem?_append_right (by omega), List.getElem?_drop]
  congr 1
  omega

end

/-- Settles O45: the bytes written read as the value, and no other field has a byte among them. -/
theorem fieldReadsBackAsSet : Obligations.FieldReadsBackAsSet := by
  intro k f o ty v pay pay' hf hv hr hl hw
  obtain ⟨ho, rfl⟩ := writeField_eq_some hf hv hl hw
  refine ⟨(readField_written ho).trans (readField_valueBytes hv hr hl _), fun f' o' ty' v' hne hf' hread => ?_⟩
  have ho' : o' ≤ pay.length := le_length_of_readField hread
  rw [← hread]
  rcases fields_disjoint hf hf' hne with h | h
  · have hbs : o + (ty.valueBytes v).length ≤ o' := add_length_valueBytes_le hv hl h
    refine readField_congr ?_ fun j hj _ => ?_
    · rw [written_eq_of_endsBy h]
      simp only [List.length_append, List.length_take, List.length_drop]
      omega
    · exact getElem?_written_of_endsBy ho (fieldEndsBy_mono h hj) (hbs.trans hj)
  · have hle : o' ≤ o := le_of_fieldEndsBy h
    refine readField_congr ?_ fun j _ hj => ?_
    · simp only [written, List.length_append, List.length_take]
      omega
    · refine getElem?_written_of_lt ho (not_le.1 fun hoj => ?_)
      exact Bool.false_ne_true (hj.symm.trans (fieldEndsBy_mono h hoj))

end Sys2Proof.Machine
end

section
/-! PROOFS for 30_encoding.md. The filter of a channel listener (O14). -/

namespace Sys2Proof.Machine

open Sys2Proof.Claims

/-- A pump entry is the pump agent's next step, once the entry is taken. -/
theorem fetch_pump {s : State} {a : Answers} {rest : List Event} (h : s.inputs = { agent := .pump, answers := a } :: rest) :
    fetch s = workerStep (turnTaken s s.turn.port a rest) := by
  simp only [fetch, h]
  rfl

/-- A pump that works on a message with targets left delivers it to the first. -/
theorem workerStep_of_dispatch {s : State} {m : Entry} {t : Target} {ts : List Target} (ha : s.pump.alive = true)
    (hf : s.pump.faulted = false) (hit : s.pump.it = .dispatch m (t :: ts)) : workerStep s = .done (deliverStep m t ts s) := by
  have hbegin : s.pump.canBegin = false := by simp [Pump.canBegin, ha]
  have hworks : s.pump.working = true := by simp [Pump.working, ha, hf]
  simp [workerStep, hbegin, hworks, hit]

theorem channelScoped_iff (k : Kind) : k.channelScoped = true ↔ k ∈ scopedKinds := by cases k <;> decide

theorem channelFilter_iff (i : Nat) (m : Entry) : channelFilter i m = true ↔
    m.kind ∈ scopedKinds ∧ 1 ≤ m.payload.length ∧ (m.payload.getD 0 0).toNat = i := by
  simp only [channelFilter, Bool.and_eq_true, decide_eq_true_eq, channelScoped_iff, and_assoc]

/-- Settles O14: the listener is replaced by the targets of its slot, if the filter passes. -/
theorem channelListenerFilters : Obligations.ChannelListenerFilters := by
  intro s a rest m g i ts slot hin ha hf hit hslot
  have htargets : callbackTargets s.node g i m ++ ts =
      if m.kind ∈ scopedKinds ∧ 1 ≤ m.payload.length ∧ (m.payload.getD 0 0).toNat = i
      then slot.cbs.map (Target.cb g i) ++ ts else ts := by
    simp only [callbackTargets, channelFilter_iff, Node.slot?, hslot]
    split <;> rfl
  have hstep : step s = .next (deliverStep m (.listener (.channelL g i)) ts (turnTaken s s.turn.port a rest)) := by
    rw [step, fetch_pump hin, workerStep_of_dispatch (s := turnTaken s s.turn.port a rest) ha hf hit]
  rw [hstep, ← htargets]
  simp only [deliverStep, State.deliverRest, dispatchRest, List.isEmpty_iff]
  rfl

end Sys2Proof.Machine
end

section
/-! PROOFS for 30_encoding.md. `VAR.BUILD`: the payloads it builds (O41), and what it turns away (O42). -/

namespace Sys2Proof.Machine

open Sys2Proof.Claims

section
variable {s : State} {k : Kind} {vs : List Value}

/-! ## The request -/

/-- Which values a variant takes, in the statements' words; with SYSTEM_RESET its filler (assumption 18). -/
theorem takes_iff : k.takes vs = true ↔
    (vs.length = (fieldsOf k).length ∨ (k = .capabilities ∧ vs.length = 4) ∨ (k = .systemReset ∧ vs = [.num 0x00]))
      ∧ ∀ x ∈ (fieldsOf k).zip vs, OfSort x.1.2.2 x.2 := by
  simp only [Kind.takes, Kind.variesTo, layout_eq_fieldsOf, Bool.and_eq_true, Bool.or_eq_true, decide_eq_true_eq,
    List.all_eq_true, takes_iff_ofSort]

theorem takes_of_buildShape (h : BuildShape k vs) : k.takes vs = true :=
  takes_iff.2 ⟨h.1.imp_right .inl, h.2⟩

/-! ## Range and length errors -/

/-- The range error of a field with its value, and its length error (30_encoding.md R97). -/
def rangeErrorAt (x : (FieldName × Nat × FieldType) × Value) : Option Err :=
  match x.2 with
  | .num _ => x.1.2.2.valueError x.1.1 x.1.2.1 x.2
  | .bytes _ => none

def lengthErrorAt (x : (FieldName × Nat × FieldType) × Value) : Option Err :=
  match x.2 with
  | .num _ => none
  | .bytes _ => x.1.2.2.valueError x.1.1 x.1.2.1 x.2

theorem buildError_eq : k.buildError vs =
    (((fieldsOf k).zip vs).findSome? rangeErrorAt <|> ((fieldsOf k).zip vs).findSome? lengthErrorAt) := by
  rw [← layout_eq_fieldsOf]
  rfl

/-- Only numbers are too big, and only byte strings are of the wrong length. -/
@[simp] theorem not_tooBig_bytes (ty : FieldType) (bs : Bytes) : ¬ TooBig ty (.bytes bs) := by cases ty <;> exact id

@[simp] theorem not_wrongLength_num (o : Nat) (ty : FieldType) (n : Nat) : ¬ WrongLength o ty (.num n) := by
  cases ty <;> exact id

theorem rangeErrorAt_of_tooBig {f : FieldName} {o : Nat} {ty : FieldType} {v : Value} (h : TooBig ty v) :
    rangeErrorAt ((f, o, ty), v) = some (.valueOutOfRange (.field f)) := by
  cases v with
  | num n => exact valueError_of_tooBig h
  | bytes bs => exact absurd h (not_tooBig_bytes ty bs)

theorem rangeErrorAt_eq_none {x : (FieldName × Nat × FieldType) × Value} (h : ¬ TooBig x.1.2.2 x.2) : rangeErrorAt x = none := by
  obtain ⟨⟨f, o, ty⟩, v⟩ := x
  cases v with
  | num n => exact valueError_eq_none h (not_wrongLength_num o ty n)
  | bytes => rfl

theorem lengthErrorAt_of_wrongLength {f : FieldName} {o : Nat} {ty : FieldType} {v : Value} (h : WrongLength o ty v) :
    lengthErrorAt ((f, o, ty), v) = some (.lengthError (.field f)) := by
  cases v with
  | num n => exact absurd h (not_wrongLength_num o ty n)
  | bytes => exact valueError_of_wrongLength h

theorem lengthErrorAt_eq_none {x : (FieldName × Nat × FieldType) × Value} (h : ¬ WrongLength x.1.2.1 x.1.2.2 x.2) :
    lengthErrorAt x = none := by
  obtain ⟨⟨f, o, ty⟩, v⟩ := x
  cases v with
  | num n => rfl
  | bytes bs => exact valueError_eq_none (not_tooBig_bytes ty bs) h

/-! ## What the port answers -/

section
variable (hp : PortIdle s)
include hp

theorem exec_varBuild_of_not_takes (h : ¬ k.takes vs = true) : exec (.varBuild k vs) s = .next s := by
  rw [exec, execVarBuild, Bool.eq_false_iff.2 h, onPort_refuse hp]

theorem exec_varBuild_of_error {e : Err} (ht : k.takes vs = true) (he : k.buildError vs = some e) :
    exec (.varBuild k vs) s = .next (failed s e) := by
  rw [exec, execVarBuild, ht, onPort_issue hp, he]
  exact congrArg _ (raise_beginOp s _ e)

theorem exec_varBuild_of_sound (ht : k.takes vs = true) (he : k.buildError vs = none) :
    exec (.varBuild k vs) s = .next (succeeded
      { s with mr := { opcode := some (k.opcode s.cfg), payload := some (k.buildPayload vs) } } .nothing) := by
  rw [exec, execVarBuild, ht, onPort_issue hp, he]
  exact congrArg _ (ok_beginOp (s.withMr { opcode := some (k.opcode s.cfg), payload := some (k.buildPayload vs) }) _ _)

end

end

/-- Settles O42: range errors are searched for before length errors, and what the kind does not take is refused. -/
theorem variantBuildErrors : Obligations.VariantBuildErrors := by
  intro s k vs hp
  refine ⟨fun hshape => ?_, fun hlen hcaps hreset => ?_, fun ⟨x, hx, hsort⟩ => ?_⟩
  · have ht := takes_of_buildShape hshape
    refine ⟨fun pre f o ty v post hz hpre hbig => ?_, fun hrange pre f o ty v post hz hpre hwrong => ?_⟩
    · refine exec_varBuild_of_error hp ht ?_
      rw [buildError_eq, List.findSome?_eq_some_iff.2
        ⟨pre, _, post, hz, rangeErrorAt_of_tooBig hbig, fun y hy => rangeErrorAt_eq_none (hpre y hy)⟩]
      rfl
    · refine exec_varBuild_of_error hp ht ?_
      rw [buildError_eq, List.findSome?_eq_none_iff.2 fun y hy => rangeErrorAt_eq_none (hrange y hy),
        List.findSome?_eq_some_iff.2
          ⟨pre, _, post, hz, lengthErrorAt_of_wrongLength hwrong, fun y hy => lengthErrorAt_eq_none (hpre y hy)⟩]
      rfl
  · refine exec_varBuild_of_not_takes hp fun ht => ?_
    rcases (takes_iff.1 ht).1 with h | h | h
    · exact hlen h
    · exact hcaps h
    · exact hreset h
  · exact exec_varBuild_of_not_takes hp fun ht => hsort ((takes_iff.1 ht).2 x hx)

/-! ## The payloads -/

section
variable {s : State} {k : Kind} {vs : List Value} {pay : Bytes}

/-- A byte is a number in range, and two bytes are a 16-bit number in range. -/
@[simp] theorem not_tooBig_byte (a : Byte) : ¬ TooBig .byte (.num a.toNat) := not_lt.2 (Nat.le_of_lt_succ a.isLt)

@[simp] theorem not_tooBig_word (lo hi : Byte) : ¬ TooBig .word (.num (lo.toNat + 256 * hi.toNat)) := by
  have hlo := lo.isLt
  have hhi := hi.isLt
  exact not_lt.2 (by omega)

@[simp] theorem valueBytes_byte (a : Byte) : FieldType.byte.valueBytes (.num a.toNat) = [a] := by
  simp [FieldType.valueBytes]

@[simp] theorem valueBytes_word (lo hi : Byte) :
    FieldType.word.valueBytes (.num (lo.toNat + 256 * hi.toNat)) = [lo, hi] := by
  have hlo := lo.isLt
  have hdiv : (lo.toNat + 256 * hi.toNat) / 256 = hi.toNat := by omega
  have hmod : (lo.toNat + 256 * hi.toNat) % 2 ^ 8 = lo.toNat := by omega
  have hbyte : BitVec.ofNat 8 (lo.toNat + 256 * hi.toNat) = lo := BitVec.eq_of_toNat_eq hmod
  simp [FieldType.valueBytes, bytesOf16, hdiv, hbyte]

theorem buildError_eq_none
    (h : ∀ x ∈ (fieldsOf k).zip vs, ¬ TooBig x.1.2.2 x.2 ∧ ¬ WrongLength x.1.2.1 x.1.2.2 x.2) : k.buildError vs = none := by
  rw [buildError_eq, List.findSome?_eq_none_iff.2 fun x hx => rangeErrorAt_eq_none (h x hx).1,
    List.findSome?_eq_none_iff.2 fun x hx => lengthErrorAt_eq_none (h x hx).2]
  rfl

/-- Bytes as field values. -/
def byteValues (bs : Bytes) : List Value := bs.map fun b => .num b.toNat

/-- Bytes given to byte fields are laid out as they are. -/
theorem flatMap_valueBytes_byteValues {l : List (FieldName × Nat × FieldType)} (hl : ∀ e ∈ l, e.2.2 = .byte) {bs : Bytes}
    (hlen : bs.length ≤ l.length) : (l.zip (byteValues bs)).flatMap (fun e => e.1.2.2.valueBytes e.2) = bs := by
  induction bs generalizing l with
  | nil => simp [byteValues]
  | cons b bs ih =>
    cases l with
    | nil => simp at hlen
    | cons e l =>
      obtain ⟨he, hl⟩ := List.forall_mem_cons.1 hl
      have htail : (l.zip (byteValues bs)).flatMap (fun e => e.1.2.2.valueBytes e.2) = bs :=
        ih hl (Nat.le_of_succ_le_succ hlen)
      rw [byteValues, List.map_cons, List.zip_cons_cons, List.flatMap_cons, he, valueBytes_byte]
      exact congrArg (b :: ·) htail

section
variable (hp : PortIdle s)
include hp

/-- Values without an error are built. -/
theorem exec_varBuild_of_inRange (ht : k.takes vs = true)
    (hx : ∀ x ∈ (fieldsOf k).zip vs, ¬ TooBig x.1.2.2 x.2 ∧ ¬ WrongLength x.1.2.1 x.1.2.2 x.2) (hpay : k.buildPayload vs = pay) :
    exec (.varBuild k vs) s =
      .next (succeeded { s with mr := { opcode := some (k.opcode s.cfg), payload := some pay } } .nothing) :=
  hpay ▸ exec_varBuild_of_sound hp ht (buildError_eq_none hx)

/-- A variant of byte fields is built from any bytes, one for each field. -/
theorem exec_varBuild_byteValues {bs : Bytes} (hk : ∀ e ∈ fieldsOf k, e.2.2 = .byte)
    (hlen : bs.length = (fieldsOf k).length ∨ (k = .capabilities ∧ bs.length = 4)) (hpay : k.filler ++ bs = pay) :
    exec (.varBuild k (byteValues bs)) s =
      .next (succeeded { s with mr := { opcode := some (k.opcode s.cfg), payload := some pay } } .nothing) := by
  have hzip : ∀ x ∈ (fieldsOf k).zip (byteValues bs), x.1.2.2 = .byte ∧ ∃ b : Byte, x.2 = .num b.toNat := by
    intro x hx
    obtain ⟨hfield, hvalue⟩ := List.of_mem_zip hx
    obtain ⟨b, -, hb⟩ := List.mem_map.1 hvalue
    exact ⟨hk _ hfield, b, hb.symm⟩
  have hle : bs.length ≤ k.layout.length := by
    rw [layout_eq_fieldsOf]
    rcases hlen with h | ⟨rfl, h⟩
    · exact h.le
    · exact h.le.trans (by decide)
  have ht : k.takes (byteValues bs) = true := by
    refine takes_of_buildShape ⟨by simpa [byteValues] using hlen, fun x hx => ?_⟩
    obtain ⟨hty, b, hb⟩ := hzip x hx
    rw [hty, hb]
    trivial
  refine exec_varBuild_of_inRange hp ht (fun x hx => ?_) ?_
  · obtain ⟨hty, b, hb⟩ := hzip x hx
    rw [hty, hb]
    exact ⟨not_tooBig_byte b, not_wrongLength_num _ _ _⟩
  · rw [Kind.buildPayload, flatMap_valueBytes_byteValues (fun e he => hk e (layout_eq_fieldsOf k ▸ he)) hle, hpay]

end

end

/-- Settles O41: the variants of byte fields alike, then the others one by one. -/
theorem variantsAreBuiltAsLaidOut : Obligations.VariantsAreBuiltAsLaidOut := by
  intro s hp
  refine ⟨fun a k hk => ?_, fun a b k hk => ?_, fun a b c k hk => ?_, fun a lo hi => ?_, fun a lo hi d t => ?_,
    fun a key hkey => ?_, fun p => ?_, ⟨?_, ?_⟩, fun a data hdata k hk => ?_, fun v hv => ?_,
    fun a b c d => ⟨?_, fun e => ?_⟩, fun v hv => ?_⟩
  · simp only [List.mem_cons, List.not_mem_nil, or_false] at hk
    rcases hk with rfl | rfl | rfl
    all_goals exact exec_varBuild_byteValues (bs := [a]) hp (by decide) (.inl rfl) rfl
  · simp only [List.mem_cons, List.not_mem_nil, or_false] at hk
    rcases hk with rfl | rfl | rfl | rfl | rfl
    all_goals exact exec_varBuild_byteValues (bs := [a, b]) hp (by decide) (.inl rfl) rfl
  · simp only [List.mem_cons, List.not_mem_nil, or_false] at hk
    rcases hk with rfl | rfl
    all_goals exact exec_varBuild_byteValues (bs := [a, b, c]) hp (by decide) (.inl rfl) rfl
  · refine exec_varBuild_of_inRange hp rfl ?_ ?_
    · simp [fieldsOf]
    · simp [Kind.buildPayload, Kind.layout, Kind.filler]
  · refine exec_varBuild_of_inRange hp rfl ?_ ?_
    · simp [fieldsOf]
    · simp [Kind.buildPayload, Kind.layout, Kind.filler]
  · refine exec_varBuild_of_inRange hp rfl ?_ ?_
    · simp [fieldsOf, WrongLength, hkey]
    · simp [Kind.buildPayload, Kind.layout, Kind.filler, FieldType.valueBytes]
  · exact exec_varBuild_byteValues (bs := [p]) hp (by decide) (.inl rfl) rfl
  · exact exec_varBuild_byteValues (bs := []) hp (by decide) (.inl rfl) rfl
  · exact exec_varBuild_of_inRange hp rfl (by simp [fieldsOf]) rfl
  · simp only [List.mem_cons, List.not_mem_nil, or_false] at hk
    have hlen : 1 + data.length ≤ 9 := by omega
    rcases hk with rfl | rfl | rfl
    all_goals
      refine exec_varBuild_of_inRange hp rfl ?_ ?_
      · simp [fieldsOf, WrongLength, hlen]
      · simp [Kind.buildPayload, Kind.layout, Kind.filler, FieldType.valueBytes]
  · refine exec_varBuild_of_inRange hp rfl ?_ ?_
    · simp [fieldsOf, WrongLength, hv]
    · simp [Kind.buildPayload, Kind.layout, Kind.filler, FieldType.valueBytes]
  · exact exec_varBuild_byteValues (bs := [a, b, c, d]) hp (by decide) (.inr ⟨rfl, rfl⟩) rfl
  · exact exec_varBuild_byteValues (bs := [a, b, c, d, e]) hp (by decide) (.inl rfl) rfl
  · refine exec_varBuild_of_inRange hp rfl ?_ ?_
    · simp [fieldsOf, WrongLength, hv]
    · simp [Kind.buildPayload, Kind.layout, Kind.filler, FieldType.valueBytes]

end Sys2Proof.Machine
end

section
/-! PROOFS for 40_codec.md. `decodeF` check by check (O4), the round trip (O2, O3), and that a string that decodes begins with the
encoder's frame (O5). -/

namespace Sys2Proof

open Sys2Proof.Machine Sys2Proof.Claims

/-! ## The checks in their order -/

section
variable {raw : Bytes}

theorem decodeF_of_short (h : raw.length < minDecode) : decodeF raw = .error .incomplete := if_pos h

section
variable (hmin : minDecode ≤ raw.length)
include hmin

theorem decodeF_of_badSync (h : raw.getD 0 0 ≠ syncByte) : decodeF raw = .error .badSync := by
  rw [decodeF, if_neg (not_lt.2 hmin), if_pos h]

variable (hsync : raw.getD 0 0 = syncByte)
include hsync

/-- Past the first two checks the length byte decides. -/
theorem decodeF_of_sync : decodeF raw =
    if (raw.getD 1 0).toNat > maxPayload then .error .payloadTooLong
    else if raw.length < (raw.getD 1 0).toNat + frameOverhead then .error .incomplete
    else if chk (raw.getD 1 0) (raw.getD 2 0) ((raw.drop 3).take (raw.getD 1 0).toNat)
        ≠ raw.getD (3 + (raw.getD 1 0).toNat) 0
      then .error (.checksumMismatch ((raw.getD 1 0).toNat + frameOverhead))
    else .ok (raw.getD 2 0, (raw.drop 3).take (raw.getD 1 0).toNat, (raw.getD 1 0).toNat + frameOverhead) := by
  rw [decodeF, if_neg (not_lt.2 hmin), if_neg (not_not.2 hsync)]

theorem decodeF_of_tooLong (h : maxPayload < (raw.getD 1 0).toNat) : decodeF raw = .error .payloadTooLong := by
  rw [decodeF_of_sync hmin hsync, if_pos h]

variable (hmax : (raw.getD 1 0).toNat ≤ maxPayload)
include hmax

theorem decodeF_of_cut (h : raw.length < (raw.getD 1 0).toNat + frameOverhead) : decodeF raw = .error .incomplete := by
  rw [decodeF_of_sync hmin hsync, if_neg (not_lt.2 hmax), if_pos h]

theorem decodeF_of_whole (h : (raw.getD 1 0).toNat + frameOverhead ≤ raw.length) : decodeF raw =
    if chk (raw.getD 1 0) (raw.getD 2 0) ((raw.drop 3).take (raw.getD 1 0).toNat) = raw.getD (3 + (raw.getD 1 0).toNat) 0
    then .ok (raw.getD 2 0, (raw.drop 3).take (raw.getD 1 0).toNat, (raw.getD 1 0).toNat + frameOverhead)
    else .error (.checksumMismatch ((raw.getD 1 0).toNat + frameOverhead)) := by
  rw [decodeF_of_sync hmin hsync, if_neg (not_lt.2 hmax), if_neg (not_lt.2 h), ite_not]

end

end

/-- Settles O4, check by check. -/
theorem decodeChecksInOrder : Obligations.DecodeChecksInOrder :=
  fun _ => ⟨decodeF_of_short, decodeF_of_badSync, decodeF_of_tooLong, decodeF_of_cut, decodeF_of_whole⟩

/-! ## Encoded frames -/

/-- Settles O2: a frame of a payload that is not empty is long enough by itself. -/
theorem frameRoundTrip : Obligations.FrameRoundTrip := by
  intro opc pay hpos hmax
  have hlen : (encodeF opc pay).length = pay.length + 4 := encodeF_length opc pay
  have hmin : minDecode ≤ (encodeF opc pay).length + ([] : Bytes).length := by
    rw [hlen, minDecode, List.length_nil]
    omega
  simpa only [List.append_nil, hlen] using decodeF_encodeF_append opc [] hmax hmin

/-- Settles O3: the frame has 4 bytes, one less than the first check asks for. -/
theorem emptyPayloadFrameNeedsOneMoreByte : Obligations.EmptyPayloadFrameNeedsOneMoreByte := by
  intro opc
  have hlen : (encodeF opc []).length = 4 := encodeF_length opc []
  refine ⟨decodeF_of_short (by rw [hlen]; decide), fun x => ?_⟩
  have h := decodeF_encodeF_append opc (pay := []) [x] (Nat.zero_le _) (by rw [hlen]; exact le_rfl)
  rwa [hlen] at h

/-! ## Decoded strings -/

/-- A string that decodes begins with the frame of what it decodes to, and that frame is what is consumed (R127, R135). -/
theorem take_eq_encodeF_of_decodeF {raw : Bytes} {opc : Byte} {pay : Bytes} {n : Nat} (h : decodeF raw = .ok (opc, pay, n)) :
    raw.take n = encodeF opc pay ∧ n = (encodeF opc pay).length := by
  obtain ⟨hmin, hsync, -, hlen, hn, rfl, hpay, hchk⟩ := (decodeF_eq_ok_iff raw opc pay n).1 h
  obtain ⟨a, b, c, tail, rfl⟩ : ∃ a b c tail, raw = a :: b :: c :: tail := by
    match raw, hmin with
    | a :: b :: c :: tail, _ => exact ⟨a, b, c, tail, rfl⟩
  change a = syncByte at hsync
  change n = b.toNat + 4 at hn
  change pay = tail.take b.toNat at hpay
  subst hsync hn
  have hlast : b.toNat < tail.length := by
    simp only [List.length_cons] at hlen
    omega
  have hlength : pay.length = b.toNat := by rw [hpay, List.length_take_of_le hlast.le]
  have hsum : tail[b.toNat] = chk b c pay := by simpa [hlast] using hchk
  refine ⟨?_, by rw [encodeF_length, hlength]⟩
  calc (syncByte :: b :: c :: tail).take (b.toNat + 4)
      = syncByte :: b :: c :: tail.take (b.toNat + 1) := rfl
    _ = syncByte :: b :: c :: (pay ++ [chk b c pay]) := by rw [← List.take_concat_get' _ _ hlast, hsum, hpay]
    _ = encodeF c pay := by simp [encodeF, hlength]

/-- Settles O5: the first `n` bytes are an encoded frame, which decodes whatever follows it. -/
theorem decodeIgnoresTrailingBytes : Obligations.DecodeIgnoresTrailingBytes := by
  intro raw rest opc pay n h hmin
  obtain ⟨htake, rfl⟩ := take_eq_encodeF_of_decodeF h
  rw [htake]
  exact decodeF_encodeF_append opc rest (decodeF_length h) hmin

end Sys2Proof
end

section
/-! PROOFS for 40_codec.md. The codec operations on an `Idle` port (O37, O39, O40), and that no operation that raises writes `MR`
(O28). -/

namespace Sys2Proof.Machine

open Sys2Proof.Claims

/-! ## Codec operations on an `Idle` port -/

/-- An operation that is issued, writes `MR` and ends with OK. -/
theorem ok_withMr_beginOp (s : State) (m : MR) (i : Instr) (r : Result) :
    ((s.beginOp i).withMr m).ok r = succeeded { s with mr := m } r := ok_beginOp (s.withMr m) i r

/-- A whole read of a written `MR` goes on with the message. -/
theorem withMessage_of_written {s : State} {opc : Byte} {pay : Bytes} (h : s.mr = { opcode := some opc, payload := some pay })
    (go : Byte → Bytes → State → State) : withMessage go s = go opc pay s := by
  rw [withMessage, h]

/-- The answer to an opcode: its kind, or `UnknownMessageType` (40_codec.md R130). -/
theorem respondKind_opcode {s : State} (hc : s.cfg.wf = true) (k : Kind) :
    respondKind (k.opcode s.cfg) s = s.ok (.kind k) := by
  rw [respondKind, (resolve_eq_some_iff hc _ k).2 rfl]

theorem respondKind_of_no_kind {s : State} (hc : s.cfg.wf = true) {b : Byte} (h : ∀ k : Kind, k.opcode s.cfg ≠ b) :
    respondKind b s = s.raise (.unknownMessageType b) := by
  have hnone : resolve s.cfg b = none :=
    Option.eq_none_iff_forall_ne_some.2 fun k hk => h k ((resolve_eq_some_iff hc b k).1 hk)
  rw [respondKind, hnone]

section
variable {s : State} (hp : PortIdle s)
include hp

theorem exec_msgNew (opc : Nat) (bs : Bytes) : exec (.msgNew opc bs) s = .next (
    if 255 < opc then failed s (.valueOutOfRange .opcode)
    else if 9 < bs.length then failed s (.lengthError .payload)
    else succeeded { s with mr := { opcode := some (BitVec.ofNat 8 opc), payload := some bs } } .nothing) := by
  rw [exec, execMsgNew, onPort_issue hp, raise_beginOp, raise_beginOp, State.setMessage, ok_withMr_beginOp]

theorem exec_msgSetop (v : Nat) : exec (.msgSetop v) s = .next (
    if 255 < v then failed s (.valueOutOfRange .opcode)
    else succeeded { s with mr := { s.mr with opcode := some (BitVec.ofNat 8 v) } } .nothing) := by
  rw [exec, execMsgSetop, onPort_issue hp, raise_beginOp, ok_withMr_beginOp, State.beginOp_mr]

theorem exec_msgSetpay (bs : Bytes) : exec (.msgSetpay bs) s = .next (
    if 9 < bs.length then failed s (.lengthError .payload)
    else succeeded { s with mr := { s.mr with payload := some bs } } .nothing) := by
  rw [exec, execMsgSetpay, onPort_issue hp, raise_beginOp, ok_withMr_beginOp, State.beginOp_mr]

section
variable {opc : Byte} {pay : Bytes} (h : s.mr = { opcode := some opc, payload := some pay })
include h

theorem exec_msgEncode_of_written : exec .msgEncode s = .next (succeeded s (.bytes (encodeF opc pay))) := by
  rw [exec, execMsgEncode, onPort_issue hp, withMessage_of_written (s := s.beginOp _) h, ok_beginOp]

theorem exec_msgChecksum_of_written :
    exec .msgChecksum s = .next (succeeded s (.num (chk (BitVec.ofNat 8 pay.length) opc pay).toNat)) := by
  rw [exec, execMsgChecksum, onPort_issue hp, withMessage_of_written (s := s.beginOp _) h, ok_beginOp]

end

theorem exec_msgDecode_of_ok {raw : Bytes} {opc : Byte} {pay : Bytes} {n : Nat} (h : decodeF raw = .ok (opc, pay, n)) :
    exec (.msgDecode raw) s =
      .next (succeeded { s with mr := { opcode := some opc, payload := some pay } } (.num n)) := by
  rw [exec, execMsgDecode, onPort_issue hp, h]
  exact congrArg _ (ok_withMr_beginOp s _ _ _)

theorem exec_msgDecode_of_error {raw : Bytes} {e : DecodeError} (h : decodeF raw = .error e) :
    exec (.msgDecode raw) s = .next (failed s (errOfDecode e)) := by
  rw [exec, execMsgDecode, onPort_issue hp, h]
  exact congrArg _ (raise_beginOp s _ _)

theorem exec_msgResolve_of_out_of_range {opc : Nat} (h : 255 < opc) :
    exec (.msgResolve opc) s = .next (failed s (.valueOutOfRange .opcode)) := by
  rw [exec, execMsgResolve, onPort_issue hp, if_pos h, raise_beginOp]

theorem exec_msgResolve_byte (b : Byte) :
    exec (.msgResolve b.toNat) s = .next (respondKind b (s.beginOp (.msgResolve b.toNat))) := by
  have hb : ¬ b.toNat > 255 := by have := b.isLt; omega
  rw [exec, execMsgResolve, onPort_issue hp, if_neg hb, BitVec.ofNat_toNat, BitVec.setWidth_eq]

theorem exec_msgResolveMr_of_written {b : Byte} (h : s.mr.opcode = some b) :
    exec .msgResolveMr s = .next (respondKind b (s.beginOp .msgResolveMr)) := by
  rw [exec, execMsgResolveMr, onPort_issue hp, State.beginOp_mr, h]

end

/-- Settles O37, operation by operation. -/
theorem messageIsWrittenAndRead : Obligations.MessageIsWrittenAndRead := fun _ hp =>
  ⟨exec_msgNew hp, exec_msgSetop hp, exec_msgSetpay hp, fun _ _ h =>
    ⟨exec_msgEncode_of_written hp h, exec_msgChecksum_of_written hp h⟩⟩

/-- Settles O39: the answers of `decodeF`, and the response to each. -/
theorem messageDecodeResult : Obligations.MessageDecodeResult := fun _ _ hp =>
  ⟨fun _ _ _ => exec_msgDecode_of_ok hp, exec_msgDecode_of_error hp, exec_msgDecode_of_error hp,
    exec_msgDecode_of_error hp, fun _ => exec_msgDecode_of_error hp⟩

/-- Settles O40: `resolve` inverts the opcode map of lawful parameters. -/
theorem messageResolveResult : Obligations.MessageResolveResult := by
  intro s hc hp
  have known (i : Instr) (k : Kind) : respondKind (k.opcode s.cfg) (s.beginOp i) = succeeded s (.kind k) :=
    (respondKind_opcode (s := s.beginOp i) hc k).trans (ok_beginOp s i _)
  have unknown (i : Instr) (b : Byte) (h : ∀ k : Kind, k.opcode s.cfg ≠ b) :
      respondKind b (s.beginOp i) = failed s (.unknownMessageType b) :=
    (respondKind_of_no_kind (s := s.beginOp i) hc h).trans (raise_beginOp s i _)
  refine ⟨fun opc h => exec_msgResolve_of_out_of_range hp h, fun k => ?_, fun b h => ?_, fun k hk => ?_, fun b hb h => ?_⟩
  · rw [exec_msgResolve_byte hp, known]
  · rw [exec_msgResolve_byte hp, unknown _ b h]
  · rw [exec_msgResolveMr_of_written hp hk, known]
  · rw [exec_msgResolveMr_of_written hp hb, unknown _ b h]

/-! ## Errors and `MR` -/

/-- An instruction that does not write `MR` leaves it as it is. -/
theorem mr_kept {i : Instr} (hi : i.writesMr = false) (m : MR) : Kept i (fun s => s.mr = m) := by
  constructor
  case mr => intro hw; exact absurd (hi.symm.trans hw) Bool.false_ne_true
  all_goals intros; assumption

/-- What becomes of `MR` from `s` to `t`: it stays as it is, or the port has answered OK. -/
def MrKeptOrOk (s t : State) : Prop :=
  t.mr = s.mr ∨ ∃ p r, t.env.responses = s.env.responses ++ [(p, .ok r)]

theorem MrKeptOrOk.ok_withMr {s u : State} (hu : u.env = s.env) (m : MR) (r : Result) : MrKeptOrOk s ((u.withMr m).ok r) :=
  .inr ⟨u.turn.port, r, by simp [hu]⟩

/-- An operation of one step, from what its issue does. -/
theorem onPort_mrKeptOrOk {i : Instr} {ok : Bool} {issue : State → State} {s t : State}
    (hi : MrKeptOrOk s (issue (s.beginOp i))) (he : onPort i ok issue hold s = .next t) : MrKeptOrOk s t := by
  rcases onPort_cases he with rfl | ⟨q, -, -, -, rfl⟩ | ⟨q, -, -, -, rfl⟩
  · exact .inl rfl
  · exact hi
  · exact .inl rfl

/-- A field access does not write `MR` but by what it goes on with. -/
theorem withField_mrKeptOrOk {f : FieldName} {go : Kind → Nat → FieldType → State → State} {s u : State} (hu : u.mr = s.mr)
    (hg : ∀ k o ty, MrKeptOrOk s (go k o ty u)) : MrKeptOrOk s (withField f go u) := by
  unfold withField
  split
  · exact .inl hu
  split
  · exact .inl hu
  split
  · exact .inl hu
  · exact hg _ _ _

/-- Each of the six operations that write `MR` does so as its last write before it answers OK. -/
theorem exec_mrKeptOrOk {i : Instr} {s t : State} (hi : i.writesMr = true) (he : exec i s = .next t) : MrKeptOrOk s t := by
  have kept {u : State} (hu : u.mr = s.mr) : MrKeptOrOk s u := .inl hu
  cases i <;> try exact absurd hi Bool.false_ne_true
  all_goals simp only [exec] at he; refine onPort_mrKeptOrOk ?_ he
  case msgNew =>
    split
    · exact kept rfl
    split
    · exact kept rfl
    · exact .ok_withMr rfl _ _
  case msgSetop | msgSetpay | msgDecode | varBuild =>
    split
    · exact kept rfl
    · exact .ok_withMr rfl _ _
  case varSet =>
    refine withField_mrKeptOrOk rfl fun k o ty => ?_
    split
    · exact kept rfl
    split
    · exact kept rfl
    split
    · exact kept rfl
    · exact .ok_withMr rfl _ _

/-- Settles O28: a frame instruction writes the pump only, and an operation that writes `MR` answers OK. -/
theorem errorsLeaveMrAlone : Obligations.ErrorsLeaveMrAlone := by
  intro i s t p e he hresp
  cases hc : i.isCommand with
  | false =>
    obtain ⟨q, rfl⟩ := exec_frame hc he
    rfl
  | true =>
    cases hw : i.writesMr with
    | false => exact (mr_kept hw s.mr).exec hc rfl he
    | true =>
      rcases exec_mrKeptOrOk hw he with h | ⟨p', r, h⟩
      · exact h
      · rw [h] at hresp
        simp at hresp

end Sys2Proof.Machine
end

section
/-! PROOFS for 42_pump.md. The framer: decoding reads no further than the frame, the scan drops bad frames and stops (O11), and a
scan step runs the frame it finds (O9). -/

namespace Sys2Proof

open Sys2Proof.Machine Sys2Proof.Claims

/-! ## Decoding and what follows -/

/-- Once a string does not come out as incomplete, bytes that follow change nothing: every check reads within the frame. -/
theorem decodeF_append {raw : Bytes} (h : decodeF raw ≠ .error .incomplete) (more : Bytes) :
    decodeF (raw ++ more) = decodeF raw := by
  have hmin : minDecode ≤ raw.length := not_lt.1 fun hshort => h (decodeF_of_short hshort)
  have hmin' : minDecode ≤ (raw ++ more).length := by rw [List.length_append]; omega
  have hget (i : Nat) (hi : i < raw.length) : (raw ++ more).getD i 0 = raw.getD i 0 := List.getD_append _ _ _ _ hi
  have hbyte (i : Nat) (hi : i < minDecode) : (raw ++ more).getD i 0 = raw.getD i 0 := hget i (hi.trans_le hmin)
  have h0 := hbyte 0 (by decide)
  have h1 := hbyte 1 (by decide)
  have h2 := hbyte 2 (by decide)
  by_cases hsync : raw.getD 0 0 = syncByte
  swap
  · rw [decodeF_of_badSync hmin hsync, decodeF_of_badSync hmin' (h0 ▸ hsync)]
  by_cases hmax : (raw.getD 1 0).toNat ≤ maxPayload
  swap
  · have hlong : maxPayload < (raw.getD 1 0).toNat := not_le.1 hmax
    rw [decodeF_of_tooLong hmin hsync hlong, decodeF_of_tooLong hmin' (h0.trans hsync) (h1 ▸ hlong)]
  have hwhole : (raw.getD 1 0).toNat + 4 ≤ raw.length := not_lt.1 fun hcut => h (decodeF_of_cut hmin hsync hmax hcut)
  have hwhole' : ((raw ++ more).getD 1 0).toNat + frameOverhead ≤ (raw ++ more).length := by
    rw [h1, List.length_append]
    exact hwhole.trans (Nat.le_add_right _ _)
  have hpay : ((raw ++ more).drop 3).take (raw.getD 1 0).toNat = (raw.drop 3).take (raw.getD 1 0).toNat := by
    rw [List.drop_append_of_le_length (by omega), List.take_append_of_le_length (by rw [List.length_drop]; omega)]
  rw [decodeF_of_whole hmin hsync hmax hwhole, decodeF_of_whole hmin' (h0.trans hsync) (h1 ▸ hmax) hwhole', h1, h2, hpay,
    hget _ (by omega)]

/-- A checksum mismatch skips the whole frame, which has at least 4 bytes and stands in the string (40_codec.md R126). -/
theorem skip_of_mismatch {raw : Bytes} {skip : Nat} (h : decodeF raw = .error (.checksumMismatch skip)) :
    skip = (raw.getD 1 0).toNat + frameOverhead ∧ skip ≤ raw.length := by
  unfold decodeF at h
  split at h
  · cases h
  split at h
  · cases h
  dsimp only at h
  split at h
  · cases h
  split at h
  · cases h
  next hlen =>
    split at h
    · cases h
      exact ⟨rfl, not_lt.1 hlen⟩
    · cases h

/-! ## Decoding to an instruction -/

theorem decode_of_error {c : Config} {raw : Bytes} {e : DecodeError} (h : decodeF raw = .error e) : decode c raw = .error e := by
  rw [decode, h]

/-- What goes wrong in `decode` is what goes wrong in `decodeF`, or an unknown opcode. -/
theorem decodeF_of_decode_error {c : Config} {raw : Bytes} {e : DecodeError} (h : decode c raw = .error e)
    (hu : ∀ opc, e ≠ .unknownMessageType opc) : decodeF raw = .error e := by
  unfold decode at h
  split at h
  · next e' hd =>
    cases h
    exact hd
  · split at h
    · cases h
      exact absurd rfl (hu _)
    · cases h

theorem decode_append {c : Config} {raw : Bytes} (h : decode c raw ≠ .error .incomplete) (more : Bytes) :
    decode c (raw ++ more) = decode c raw := by
  rw [decode, decode, decodeF_append (fun hd => h (decode_of_error hd)) more]

/-- A string that decodes to an instruction is not empty. -/
theorem ne_nil_of_decode_ok {c : Config} {raw : Bytes} {r : Instr × Nat} (h : decode c raw = .ok r) : raw ≠ [] := by
  rintro rfl
  cases h

end Sys2Proof

namespace Sys2Proof.Machine

open Sys2Proof.Claims

/-! ## The scan loop -/

/-- With nothing but a failure in front that is no bad checksum, the loop ends at once. -/
theorem scanFrames_of_stop {cfg : Config} {buf : Bytes} {e : DecodeError} (h : decode cfg buf = .error e)
    (hne : ∀ skip, e ≠ .checksumMismatch skip) (fuel : Nat) : scanFrames cfg fuel buf = (none, buf) := by
  cases fuel with
  | zero => rfl
  | succ fuel =>
    rw [scanFrames, h]
    cases e with
    | checksumMismatch skip => exact absurd rfl (hne skip)
    | incomplete | badSync | payloadTooLong | unknownMessageType => rfl

theorem scanFrames_nil (cfg : Config) (fuel : Nat) : scanFrames cfg fuel [] = (none, []) :=
  scanFrames_of_stop (e := .incomplete) rfl (fun _ => DecodeError.noConfusion) fuel

/-- A turn of the loop at a bad checksum drops the frame. -/
theorem scanFrames_of_mismatch {cfg : Config} {buf : Bytes} {skip : Nat} (h : decodeF buf = .error (.checksumMismatch skip))
    (fuel : Nat) : scanFrames cfg (fuel + 1) buf = scanFrames cfg fuel (buf.drop skip) := by
  rw [scanFrames, decode_of_error h]

/-- A turn of the loop at a frame's instruction takes it. -/
theorem scanFrames_of_ok {cfg : Config} {buf : Bytes} {i : Instr} {n : Nat} (h : decode cfg buf = .ok (i, n))
    (fuel : Nat) : scanFrames cfg (fuel + 1) buf = (some i, buf.drop n) := by
  rw [scanFrames, h]

/-- A skip leaves fewer bytes than there were. -/
theorem length_drop_skip_lt {buf : Bytes} {skip : Nat} (h : decodeF buf = .error (.checksumMismatch skip)) :
    (buf.drop skip).length < buf.length := by
  obtain ⟨hskip, hle⟩ := skip_of_mismatch h
  have hpos : 4 ≤ skip := hskip ▸ Nat.le_add_left _ _
  rw [List.length_drop]
  omega

/-- The buffer's length is fuel enough: more changes nothing. -/
theorem scanFrames_fuel {cfg : Config} (fuel fuel' : Nat) {buf : Bytes} (h : buf.length ≤ fuel) (h' : buf.length ≤ fuel') :
    scanFrames cfg fuel buf = scanFrames cfg fuel' buf := by
  induction fuel generalizing fuel' buf with
  | zero =>
    obtain rfl : buf = [] := List.length_eq_zero_iff.1 (Nat.le_zero.1 h)
    rw [scanFrames_nil, scanFrames_nil]
  | succ fuel ih =>
    cases fuel' with
    | zero =>
      obtain rfl : buf = [] := List.length_eq_zero_iff.1 (Nat.le_zero.1 h')
      rw [scanFrames_nil, scanFrames_nil]
    | succ fuel' =>
      cases hd : decode cfg buf with
      | ok r => rw [scanFrames_of_ok hd, scanFrames_of_ok hd]
      | error e =>
        by_cases hm : ∃ skip, e = .checksumMismatch skip
        · obtain ⟨skip, rfl⟩ := hm
          have hF := decodeF_of_decode_error hd fun _ => DecodeError.noConfusion
          have hlt := length_drop_skip_lt hF
          rw [scanFrames_of_mismatch hF, scanFrames_of_mismatch hF]
          exact ih fuel' (by omega) (by omega)
        · have hne (skip : Nat) : e ≠ .checksumMismatch skip := fun he => hm ⟨skip, he⟩
          rw [scanFrames_of_stop hd hne, scanFrames_of_stop hd hne]

/-! ## The scan step -/

/-- A working pump in `Scan` scans. -/
theorem workerStep_of_scan {s : State} (ha : s.pump.alive = true) (hf : s.pump.faulted = false) (hit : s.pump.it = .scan) :
    workerStep s = scanStep s := by
  simp [workerStep, Pump.canBegin, Pump.working, ha, hf, hit]

theorem scanStep_of_ok {s : State} {i : Instr} {n : Nat} (h : decode s.cfg s.pump.rxBuf = .ok (i, n)) :
    scanStep s = .run i (s.withPump { s.pump with rxBuf := s.pump.rxBuf.drop n }) := by
  have hlen : s.pump.rxBuf.length = s.pump.rxBuf.length - 1 + 1 :=
    (Nat.succ_pred (mt List.length_eq_zero_iff.1 (ne_nil_of_decode_ok h))).symm
  rw [scanStep, hlen, scanFrames_of_ok h]

theorem scanStep_of_stop {s : State} {e : DecodeError} (h : decode s.cfg s.pump.rxBuf = .error e)
    (hne : ∀ skip, e ≠ .checksumMismatch skip) : scanStep s = .done (s.withPump { s.pump with it := .read }) := by
  rw [scanStep, scanFrames_of_stop h hne]

/-- A scan that drops a bad frame goes on as a scan of what follows it. -/
theorem scanStep_of_mismatch {s : State} {skip : Nat} (h : decodeF s.pump.rxBuf = .error (.checksumMismatch skip)) :
    scanStep s = scanStep (s.withPump { s.pump with rxBuf := s.pump.rxBuf.drop skip }) := by
  have hlt := length_drop_skip_lt h
  have hlen : s.pump.rxBuf.length = s.pump.rxBuf.length - 1 + 1 := by omega
  have hscan : scanFrames s.cfg s.pump.rxBuf.length s.pump.rxBuf
      = scanFrames s.cfg (s.pump.rxBuf.drop skip).length (s.pump.rxBuf.drop skip) := by
    rw [hlen, scanFrames_of_mismatch h]
    exact scanFrames_fuel _ _ (by omega) le_rfl
  rw [scanStep, hscan]
  rfl

/-- A pump entry in `Scan` is a scan, once the entry is taken. -/
theorem fetch_of_scan {s : State} {a : Answers} {rest : List Event} (hin : s.inputs = { agent := .pump, answers := a } :: rest)
    (ha : s.pump.alive = true) (hf : s.pump.faulted = false) (hit : s.pump.it = .scan) :
    fetch s = scanStep (turnTaken s s.turn.port a rest) :=
  (fetch_pump hin).trans (workerStep_of_scan ha hf hit)

/-- A step is what it fetches. -/
theorem step_congr {s s' : State} (h : fetch s = fetch s') : step s = step s' := by
  rw [step, h, ← step]

/-- Settles O9: the scan loop takes the first frame, and its instruction runs. -/
theorem stepRunsTheDecodedFrame : Obligations.StepRunsTheDecodedFrame := by
  intro s a rest i n hin ha hf hit hd
  rw [step, fetch_of_scan hin ha hf hit, scanStep_of_ok (s := turnTaken s s.turn.port a rest) hd]
  rfl

/-- Settles O11: a bad frame is one turn of the loop, and every other failure ends it. -/
theorem scanSkipsOrStops : Obligations.ScanSkipsOrStops := by
  intro s a rest hin ha hf hit
  refine ⟨fun skip hd => ?_, fun e hd hne => ?_⟩
  · obtain ⟨hskip, hle⟩ := skip_of_mismatch hd
    refine ⟨hskip, hle, step_congr ?_⟩
    rw [fetch_of_scan hin ha hf hit, scanStep_of_mismatch (s := turnTaken s s.turn.port a rest) hd]
    exact (fetch_of_scan (s := s.withPump { s.pump with rxBuf := s.pump.rxBuf.drop skip }) hin ha hf hit).symm
  · rw [step, fetch_of_scan hin ha hf hit, scanStep_of_stop (s := turnTaken s s.turn.port a rest) hd hne]
    rfl

end Sys2Proof.Machine
end

section
/-! PROOFS for 42_pump.md. The worker's other steps: begin, read and exit (O12), deliver (O13), and putting a frame into dispatch
(O36). -/

namespace Sys2Proof.Machine

open Sys2Proof.Claims

/-! ## Begin, read, exit -/

theorem workerStep_of_begin {s : State} (h : s.pump.canBegin = true) : workerStep s = .done (beginStep s) := if_pos h

/-- A working pump in `Read` exits if it was told to stop, and reads otherwise. -/
theorem workerStep_of_read {s : State} (ha : s.pump.alive = true) (hf : s.pump.faulted = false) (hit : s.pump.it = .read) :
    workerStep s = .done (if s.pump.stopReq then exitStep s else readStep s) := by
  simp [workerStep, Pump.canBegin, Pump.working, ha, hf, hit]

/-- A read goes on by what it answers, and leaves one TRACE event of that. -/
theorem readStep_of_got {s : State} {bs : Bytes} (h : s.readResult = .got bs) :
    readStep s = (s.withEnv (s.env.traced s.cfg.logger (.read (.got bs)))).withPump
      { s.pump with rxBuf := s.pump.rxBuf ++ bs, it := .scan } := by
  simp only [readStep, State.rxRead, h, State.traceEvent_eq, State.withEnv_pump]

theorem readStep_of_error {s : State} (h : s.readResult = .error) :
    readStep s = (s.withEnv (s.env.traced s.cfg.logger (.read .error))).withPump { s.pump with faulted := true } := by
  simp only [readStep, State.rxRead, h, State.traceEvent_eq, State.withEnv_pump]

/-- An answer within `READ_CHUNK` is read whole (60_exceptions.md R338). -/
theorem readResult_of_got {s : State} {bs : Bytes} (ho : s.env.tOpen = true) (hc : 1 ≤ s.cfg.readChunk)
    (hr : s.turn.answers.read = .got bs) (hlen : bs.length ≤ s.cfg.readChunk) : s.readResult = .got bs := by
  simp [State.readResult, ho, hc, hr, List.take_of_length_le hlen]

theorem readResult_of_error {s : State} (h : s.env.tOpen = false ∨ s.turn.answers.read = .error) : s.readResult = .error := by
  rcases h with h | h <;> simp [State.readResult, h]

section
variable {s t : State} {a : Answers} {rest : List Event} (hin : s.inputs = { agent := .pump, answers := a } :: rest)
include hin

/-- A pump step that runs no frame is what the pump agent leaves. -/
theorem step_of_pump_done (h : workerStep (turnTaken s s.turn.port a rest) = .done t) : step s = .next t := by
  rw [step, fetch_pump hin, h]

end

/-- Settles O12, one clause for each of the worker's steps in `Read` and before it. -/
theorem workerBeginsReadsAndExits : Obligations.WorkerBeginsReadsAndExits := by
  intro s a rest hin
  have reads (ha : s.pump.alive = true) (hf : s.pump.faulted = false) (hit : s.pump.it = .read) :
      workerStep (turnTaken s s.turn.port a rest) = .done (if s.pump.stopReq then exitStep (turnTaken s s.turn.port a rest)
        else readStep (turnTaken s s.turn.port a rest)) := workerStep_of_read ha hf hit
  refine ⟨fun hrun ha hstop hf => ?_, fun ha hf hit hstop bs ho hc hr hlen => ?_, fun ha hf hit hstop hr => ?_,
    fun ha hf hit hstop => ?_⟩
  · exact step_of_pump_done hin (workerStep_of_begin ((s.pump.canBegin_iff).2 ⟨hrun, ha, hstop, hf⟩))
  · rw [step_of_pump_done hin (reads ha hf hit), hstop]
    exact congrArg _ (readStep_of_got (readResult_of_got ho hc hr hlen))
  · rw [step_of_pump_done hin (reads ha hf hit), hstop]
    exact congrArg _ (readStep_of_error (readResult_of_error hr))
  · rw [step_of_pump_done hin (reads ha hf hit), hstop]
    rfl

/-! ## Deliver -/

theorem dispatchRest_eq (m : Entry) (ts : List Target) : dispatchRest m ts = if ts = [] then .scan else .dispatch m ts := by
  simp only [dispatchRest, List.isEmpty_iff]

/-- An invocation that has come back, with a failure or not, is recorded and the message goes on (42_pump.md R220). -/
theorem invokeListener_of_answered {s : State} (h : s.turn.answers.listener ≠ .pending) (m : Entry) (t : Target)
    (ts : List Target) : invokeListener m t ts s = (s.withEnv { s.env with lsn := s.env.lsn ++ [(t, m)] }).deliverRest m ts := by
  unfold invokeListener
  split
  · next hp => exact absurd hp h
  · rfl
  · rfl

theorem invokeListener_of_pending {s : State} (h : s.turn.answers.listener = .pending) (m : Entry) (t : Target)
    (ts : List Target) : invokeListener m t ts s = s := by
  rw [invokeListener, h]

/-- The ack collector captures channel events only (R207). -/
theorem deliverStep_ackCollector (s : State) (m : Entry) (ts : List Target) :
    deliverStep m (.listener .ackCollector) ts s = s.withPump { s.pump with
      ackQ := if m.kind = .channelEvent then qInsert s.pump.ackQ m else s.pump.ackQ
      it := dispatchRest m ts } := by
  simp only [deliverStep]
  split <;> rfl

/-- Settles O13, target by target. -/
theorem messageIsDelivered : Obligations.MessageIsDelivered := by
  intro s a rest m t ts hin ha hf hit
  have hstep : step s = .next (deliverStep m t ts (turnTaken s s.turn.port a rest)) :=
    step_of_pump_done hin (workerStep_of_dispatch ha hf hit)
  rw [hstep, ← dispatchRest_eq]
  refine ⟨?_, ?_, fun ht => ?_⟩
  · rintro rfl
    rw [deliverStep_ackCollector]
    rfl
  · rintro rfl
    rfl
  · have hinvoke : deliverStep m t ts (turnTaken s s.turn.port a rest)
        = invokeListener m t ts (turnTaken s s.turn.port a rest) := by
      rcases ht with ⟨n, rfl⟩ | ⟨g, i, c, rfl⟩ <;> rfl
    rw [hinvoke]
    exact ⟨fun h => congrArg _ (invokeListener_of_answered h m t ts), fun h => congrArg _ (invokeListener_of_pending h m t ts)⟩

/-! ## Frames -/

/-- Settles O36: every frame instruction is the one of its kind, and starts its dispatch. -/
theorem frameIsPutIntoDispatch : Obligations.FrameIsPutIntoDispatch := by
  intro i k pay s hi
  rw [Instr.eq_ofFrame_of_frame? hi, exec_ofFrame]
  rfl

end Sys2Proof.Machine
end

section
/-! PROOFS for 42_pump.md. The queues (O15, O16) and the pump operations of one step: registration (O47) and `PUMP.WRITE` (O48). -/

namespace Sys2Proof.Machine

open Sys2Proof.Claims

/-! ## Queues -/

/-- Settles O15: what the cap has cut off before an insertion, the insertion's own cap would cut off too. -/
theorem queuesKeepTheNewest25 : Obligations.QueuesKeepTheNewest25 := by
  refine ⟨fun q m => rfl, fun ms => ?_⟩
  induction ms using List.reverseRecOn with
  | nil => rfl
  | append_singleton ms m ih =>
    calc (ms ++ [m]).foldl qInsert [] = qInsert (ms.reverse.take 25) m := by rw [List.foldl_concat, ih]
      _ = (m :: ms.reverse).take 25 := by simp [qInsert, List.take_take]
      _ = (ms ++ [m]).reverse.take 25 := by rw [List.reverse_concat]

/-- Settles O16: `qTake_cases` gives the two answers, and `qTake_of_firstIn` the match that decides. -/
theorem takeFindsTheMostRecentMatch : Obligations.TakeFindsTheMostRecentMatch := by
  intro P q
  refine ⟨fun a e b h => qTake_of_firstIn h, ?_⟩
  rcases qTake_cases P q with ⟨hnone, hno⟩ | ⟨a, e, b, hq, ha, he, htake⟩
  · rw [hnone]
    exact ⟨fun _ _ h => (nomatch h), ⟨fun _ => hno, fun _ => rfl⟩⟩
  · rw [htake]
    refine ⟨fun e' q' h => ?_, ⟨fun h => (nomatch h), fun hno => ?_⟩⟩
    · cases h
      exact ⟨a, b, ⟨hq, fun x hx => Bool.eq_false_iff.1 (ha x hx), he⟩, rfl⟩
    · have hmem : e ∈ q := hq ▸ List.mem_append_right a List.mem_cons_self
      exact absurd he (Bool.eq_false_iff.1 (hno e hmem))

/-! ## Registration -/

/-- An operation that is issued, writes the pump and ends with OK. -/
theorem ok_withPump_beginOp (s : State) (p : Pump) (i : Instr) (r : Result) :
    ((s.beginOp i).withPump p).ok r = succeeded { s with pump := p } r := ok_beginOp (s.withPump p) i r

/-- A listener names something unless it is a channel listener of no slot (60_exceptions.md R333). -/
theorem names_iff (n : Node) (l : ListenerId) : n.names l = true ↔
    ∀ g i, l = .channelL g i → ∃ c ∈ n.chans ++ n.oldChans, c.gen = g ∧ c.index.toNat = i := by
  cases l <;> simp [Node.names, Node.slot?, List.find?_isSome, or_and_right, exists_or]

theorem register_eq (l : ListenerId) (reg : List ListenerId) : register l reg = if l ∈ reg then reg else reg ++ [l] := by
  simp only [register, List.contains_iff_mem]

theorem unregister_eq (l : ListenerId) (reg : List ListenerId) :
    unregister l reg = if l = .ackCollector ∨ l = .msgCollector then reg else reg.filter (fun x => x ≠ l) := by
  cases l <;> rfl

/-- Settles O47: the port accepts a listener that names something, and no other. -/
theorem listenerRegistration : Obligations.ListenerRegistration := by
  intro s l hp
  refine ⟨fun hl => ?_, fun g i hl hno => ?_⟩
  · have hnames : s.node.names l = true := (names_iff s.node l).2 hl
    rw [exec, execPumpReg, exec, execPumpUnreg, hnames, onPort_issue hp, onPort_issue hp, ok_withPump_beginOp,
      ok_withPump_beginOp, ← register_eq, ← unregister_eq]
    exact ⟨rfl, rfl⟩
  · have hnames : s.node.names l = false := by
      refine Bool.eq_false_iff.2 fun h => ?_
      obtain ⟨c, hc, hslot⟩ := (names_iff s.node l).1 h g i hl
      exact hno c hc hslot
    rw [exec, execPumpReg, exec, execPumpUnreg, hnames, onPort_refuse hp, onPort_refuse hp]
    exact ⟨rfl, rfl⟩

/-! ## `PUMP.WRITE` -/

/-- Settles O48: the message is read and its frame sent. -/
theorem pumpWriteSendsTheMessage : Obligations.PumpWriteSendsTheMessage := by
  intro s opc pay hp hmr
  rw [exec, execPumpWrite, onPort_issue hp, withMessage_of_written (s := s.beginOp _) hmr]
  refine ⟨fun n hw => ?_, fun hw => ?_⟩
  · rw [sendFrame_beginOp_of_writable hw, ok_beginOp]
  · rw [sendFrame_beginOp_of_unwritable hw]

end Sys2Proof.Machine
end

section
/-! PROOFS for 42_pump.md. What a step of each agent can write: the pump agent (O27), the callers, and who is at fault (O29). -/

namespace Sys2Proof.Machine

open Sys2Proof.Claims

/-! ## The pump agent's writes -/

/-- From `s` to `t` nothing has been written but the pump, the log of LSN and TRACE. -/
def PumpWrites (s t : State) : Prop :=
  ∃ p lsn trace, t = (s.withPump p).withEnv { s.env with lsn := lsn, trace := trace }

theorem PumpWrites.withPump (s : State) (p : Pump) : PumpWrites s (s.withPump p) := ⟨p, s.env.lsn, s.env.trace, rfl⟩

theorem readStep_pumpWrites (s : State) : PumpWrites s (readStep s) := by
  cases h : s.readResult with
  | got bs => rw [readStep_of_got h]; exact ⟨_, _, _, rfl⟩
  | error => rw [readStep_of_error h]; exact ⟨_, _, _, rfl⟩

theorem invokeListener_pumpWrites (m : Entry) (t : Target) (ts : List Target) (s : State) :
    PumpWrites s (invokeListener m t ts s) := by
  by_cases h : s.turn.answers.listener = .pending
  · rw [invokeListener_of_pending h]; exact .withPump s s.pump
  · rw [invokeListener_of_answered h]; exact ⟨_, _, _, rfl⟩

theorem deliverStep_pumpWrites (m : Entry) (t : Target) (ts : List Target) (s : State) :
    PumpWrites s (deliverStep m t ts s) := by
  match t with
  | .listener .ackCollector => rw [deliverStep_ackCollector]; exact .withPump s _
  | .listener .msgCollector => exact .withPump s _
  | .listener (.channelL g i) => exact .withPump s _
  | .listener (.external n) => exact invokeListener_pumpWrites m _ ts s
  | .cb g i c => exact invokeListener_pumpWrites m _ ts s

theorem scanStep_pumpWrites (s : State) : PumpWrites s (scanStep s).state := by
  unfold scanStep
  split
  · exact .withPump s _
  · exact .withPump s _

/-- Whatever the pump agent's next step is (42_pump.md R200). -/
theorem workerStep_pumpWrites (s : State) : PumpWrites s (workerStep s).state := by
  unfold workerStep
  split
  · exact .withPump s _
  split
  · split
    · simp only [Fetched.state]
      split
      · exact .withPump s _
      · exact readStep_pumpWrites s
    · exact scanStep_pumpWrites s
    · exact deliverStep_pumpWrites _ _ _ s
    · exact .withPump s s.pump
  · exact .withPump s s.pump

/-- A pump step writes what the pump agent writes, and a frame it runs writes the pump. -/
theorem step_pumpWrites {s t : State} {a : Answers} {rest : List Event}
    (hin : s.inputs = { agent := .pump, answers := a } :: rest) (h : step s = .next t) :
    PumpWrites (turnTaken s s.turn.port a rest) t := by
  have hwrites := workerStep_pumpWrites (turnTaken s s.turn.port a rest)
  rw [step, fetch_pump hin] at h
  cases hw : workerStep (turnTaken s s.turn.port a rest) with
  | done u =>
    rw [hw] at h hwrites
    cases h
    exact hwrites
  | run i u =>
    rw [hw] at h hwrites
    obtain ⟨p, lsn, trace, hu⟩ := hwrites
    obtain ⟨p', rfl⟩ := exec_frame (workerStep_run hw) h
    exact ⟨p', lsn, trace, congrArg (fun v => v.withPump p') hu⟩

/-! ## The callers' writes -/

/-- What a step of an agent other than the pump and block reset is: a request is issued, an operation in progress goes on, the
schedule's entry is all that is taken, or the transport is opened or closed by other means. -/
inductive CallerStep (s : State) (ev : Event) (rest : List Event) (t : State) : Prop
  | issued (k : Nat) (i : Instr) (hag : ev.agent = .request k i) (hc : i.isCommand = true)
      (hidle : (turnTaken s k ev.answers rest).seq.phase = .idle) (he : exec i (turnTaken s k ev.answers rest) = .next t)
  | resumed (k : Nat) (i : Instr) (hag : ev.agent = .caller k) (hc : i.isCommand = true)
      (hbusy : (turnTaken s k ev.answers rest).seq.phase ≠ .idle) (he : exec i (turnTaken s k ev.answers rest) = .next t)
  | held (k : Nat) (h : t = turnTaken s k ev.answers rest)
  | transport (isOpen : Bool) (h : t = (s.withInputs rest).withEnv { s.env with tOpen := isOpen })

theorem callerStep_of_step {s t : State} {ev : Event} {rest : List Event} (hin : s.inputs = ev :: rest)
    (hpump : ev.agent ≠ .pump) (hreset : ev.agent ≠ .blockReset) (h : step s = .next t) : CallerStep s ev rest t := by
  obtain ⟨ag, a⟩ := ev
  rw [step] at h
  cases ag with
  | request k i =>
    rw [fetch_request hin, requestStep] at h
    split_ifs at h with hrun
    · exact .issued k i rfl hrun.1 hrun.2 h
    · cases h
      exact .held k rfl
  | caller k =>
    rw [fetch_caller hin, callerStep] at h
    cases hop : (turnTaken s k a rest).seq.op with
    | none =>
      rw [hop] at h
      cases h
      exact .held k rfl
    | some i =>
      simp only [hop] at h
      split_ifs at h with hrun
      · exact .resumed k i rfl hrun.1 hrun.2 h
      · cases h
        exact .held k rfl
  | pump => exact absurd rfl hpump
  | blockReset => exact absurd rfl hreset
  | transport isOpen =>
    simp only [fetch, hin] at h
    cases h
    exact .transport isOpen rfl

/-- A property that survives the taking of a schedule's entry and every write of an instruction. -/
structure KeptByCallers (P : State → Prop) : Prop where
  instr : ∀ i, Kept i P
  entry : ∀ s k a rest, P s → P (turnTaken s k a rest)

/-- It survives the steps of all agents but the pump and block reset. -/
theorem KeptByCallers.step {P : State → Prop} (K : KeptByCallers P) {s t : State} {ev : Event} {rest : List Event}
    (h : CallerStep s ev rest t) (hs : P s) : P t := by
  cases h with
  | issued k i _ hc _ he => exact (K.instr i).exec hc (K.entry s k _ rest hs) he
  | resumed k i _ hc _ he => exact (K.instr i).exec hc (K.entry s k _ rest hs) he
  | held k h => exact h ▸ K.entry s k _ rest hs
  | transport isOpen h =>
    have hentry : P (s.withInputs rest) := K.entry s s.turn.port s.turn.answers rest hs
    -- the list of writes of every instruction, this one too, has the environment's
    exact h ▸ (K.instr .msgEncode).env _ _ rfl hentry

/-- What the pump agent works on, and what it has handed to listeners, no caller writes (42_pump.md R201). -/
theorem framer_keptByCallers (buf : Bytes) (it : PumpPhase) (lsn : List (Target × Entry)) :
    KeptByCallers (fun s => s.pump.rxBuf = buf ∧ s.pump.it = it ∧ s.env.lsn = lsn) where
  instr i := by
    constructor
    case env => rintro s e he ⟨hbuf, hit, hlsn⟩; exact ⟨hbuf, hit, he.trans hlsn⟩
    all_goals intros; assumption
  entry _ _ _ _ h := h

/-- Settles O27: `PumpWrites` for the pump's side, `framer_keptByCallers` for the callers'. -/
theorem pumpAndCallersKeepApart : Obligations.PumpAndCallersKeepApart := by
  rintro s t ⟨ag, a⟩ rest hin h
  refine ⟨fun hpump => ?_, fun hpump hreset => ?_⟩
  · cases hpump
    obtain ⟨p, lsn, trace, rfl⟩ := step_pumpWrites hin h
    exact ⟨rfl, rfl, rfl, rfl, rfl⟩
  · exact (framer_keptByCallers _ _ _).step (callerStep_of_step hin hpump hreset h) ⟨rfl, rfl, rfl⟩

/-! ## Faults -/

/-- Whether the worker is alive and whether it has faulted is the pump agent's to write (R201, R216). -/
theorem worker_keptByCallers (alive faulted : Bool) :
    KeptByCallers (fun s => s.pump.faulted = faulted ∧ s.pump.alive = alive) where
  instr i := by constructor <;> (intros; assumption)
  entry _ _ _ _ h := h

/-- A faulted worker has no step. -/
theorem workerStep_of_faulted {s : State} (h : s.pump.faulted = true) : workerStep s = .done s := by
  simp [workerStep, Pump.canBegin, Pump.working, h]

/-- A port that is not `Idle` and whose operation has no step in its phase stays as it is. -/
theorem onPort_hold {i : Instr} {ok : Bool} {issue : State → State} {resume : Phase → State → State} {s : State} {q : Seq}
    (hq : s.seqs[s.turn.port]? = some q) (hbusy : q.phase ≠ .idle) (hr : resume q.phase s = s) :
    onPort i ok issue resume s = .next s := by
  simp [onPort, hq, hbusy, hr]

/-- No operation has a step in the phase `Faulted` (60_exceptions.md R334). -/
theorem exec_of_faulted {i : Instr} {s : State} {q : Seq} {f : Fault} (hc : i.isCommand = true)
    (hq : s.seqs[s.turn.port]? = some q) (hf : q.phase = .faulted f) : exec i s = .next s := by
  obtain ⟨op, phase, req, ch, n, reply⟩ := q
  cases hf
  cases i <;> try exact absurd hc Bool.false_ne_true
  all_goals
    simp only [exec]
    refine onPort_hold hq Phase.noConfusion ?_
    rfl

/-- No operation moves a faulted sequencer or answers on its port: its own has no step, and another keeps to its own port. -/
theorem exec_keeps_faulted {i : Instr} {s t : State} {k : Nat} {q : Seq} {f : Fault} (hc : i.isCommand = true)
    (he : exec i s = .next t) (hq : s.seqs[k]? = some q) (hf : q.phase = .faulted f) :
    t.seqs[k]? = some q ∧ ∀ r, (k, r) ∈ t.env.responses → (k, r) ∈ s.env.responses := by
  by_cases hk : k = s.turn.port
  · subst hk
    rw [exec_of_faulted hc hq hf] at he
    cases he
    exact ⟨hq, fun _ h => h⟩
  · rcases exec_turn hc he with rfl | ⟨q', -, -, ⟨r', h⟩ | ⟨q'', h, -⟩⟩
    · exact ⟨hq, fun _ h => h⟩
    · refine ⟨(h.others k hk).trans hq, fun r hr => ?_⟩
      rw [h.responses, List.mem_append, List.mem_singleton, Prod.mk.injEq] at hr
      exact hr.resolve_right fun hlast => hk hlast.1
    · exact ⟨(h.others k hk).trans hq, fun r hr => h.responses ▸ hr⟩

/-- Settles O29, agent by agent. -/
theorem faultsAreForGood : Obligations.FaultsAreForGood := by
  rintro s t ⟨ag, a⟩ rest hin hreset h
  by_cases hpump : ag = .pump
  · subst hpump
    refine ⟨fun hf => ?_, fun k q f hq _ => ?_⟩
    · rw [step_of_pump_done hin (workerStep_of_faulted (s := turnTaken s s.turn.port a rest) hf)] at h
      cases h
      exact ⟨hf, rfl, fun _ => rfl⟩
    · obtain ⟨p, lsn, trace, rfl⟩ := step_pumpWrites hin h
      exact ⟨hq, fun _ hr => hr⟩
  · have hcaller := callerStep_of_step hin hpump hreset h
    refine ⟨fun hf => ?_, fun k q f hq hphase => ?_⟩
    · obtain ⟨hf', ha'⟩ := (worker_keptByCallers _ _).step hcaller ⟨hf, rfl⟩
      exact ⟨hf', ha', fun hp => absurd hp hpump⟩
    · cases hcaller with
      | issued k' i _ hc _ he => exact exec_keeps_faulted (s := turnTaken s k' a rest) hc he hq hphase
      | resumed k' i _ hc _ he => exact exec_keeps_faulted (s := turnTaken s k' a rest) hc he hq hphase
      | held k' h => exact h ▸ ⟨hq, fun _ hr => hr⟩
      | transport isOpen h => exact h ▸ ⟨hq, fun _ hr => hr⟩

end Sys2Proof.Machine
end

section
/-! PROOFS for 42_pump.md. A wedged receive buffer (O26): it stays as it is or grows, and decodes as before. -/

namespace Sys2Proof.Machine

open Sys2Proof.Claims

/-! ## Wedged buffers -/

/-- A wedged buffer fails to decode, but for no missing byte and no bad checksum. -/
theorem decode_of_wedged {cfg : Config} {buf : Bytes} (h : Wedged cfg buf = true) :
    ∃ e, decode cfg buf = .error e ∧ e ≠ .incomplete ∧ ∀ skip, e ≠ .checksumMismatch skip := by
  unfold Wedged at h
  split at h
  · next hd => exact ⟨_, hd, DecodeError.noConfusion, fun _ => DecodeError.noConfusion⟩
  · next hd => exact ⟨_, hd, DecodeError.noConfusion, fun _ => DecodeError.noConfusion⟩
  · next hd => exact ⟨_, hd, DecodeError.noConfusion, fun _ => DecodeError.noConfusion⟩
  all_goals cases h

/-- More bytes do not help (42_pump.md R222). -/
theorem wedged_append {cfg : Config} {buf : Bytes} (h : Wedged cfg buf = true) (more : Bytes) :
    Wedged cfg (buf ++ more) = true := by
  obtain ⟨e, hd, hne, -⟩ := decode_of_wedged h
  have hmore : decode cfg (buf ++ more) = decode cfg buf :=
    decode_append (fun hi => hne (Except.error.inj (hd.symm.trans hi))) more
  rw [← h, Wedged, Wedged, hmore]

/-- A scan of a wedged buffer ends the iteration. -/
theorem scanStep_of_wedged {s : State} (h : Wedged s.cfg s.pump.rxBuf = true) :
    scanStep s = .done (s.withPump { s.pump with it := .read }) := by
  obtain ⟨e, hd, -, hne⟩ := decode_of_wedged h
  exact scanStep_of_stop hd hne

/-! ## Steps beside a wedged buffer -/

/-- What a step leaves beside a wedged buffer: the buffer with what has been read since, no dispatch, and nothing new in the queues or
on LSN. -/
structure StaysWedged (s t : State) : Prop where
  cfg : t.cfg = s.cfg
  buf : s.pump.rxBuf <+: t.pump.rxBuf
  it : t.pump.it = .read ∨ t.pump.it = .scan
  msgQ : List.Sublist t.pump.msgQ s.pump.msgQ
  ackQ : List.Sublist t.pump.ackQ s.pump.ackQ
  lsn : t.env.lsn = s.env.lsn

/-- A read puts its bytes behind the wedged ones. -/
theorem readStep_staysWedged {s : State} (hit : s.pump.it = .read) : StaysWedged s (readStep s) := by
  cases hr : s.readResult with
  | got bs =>
    rw [readStep_of_got hr]
    exact ⟨rfl, List.prefix_append _ _, .inr rfl, .refl _, .refl _, rfl⟩
  | error =>
    rw [readStep_of_error hr]
    exact ⟨rfl, List.prefix_rfl, .inl hit, .refl _, .refl _, rfl⟩

/-- A living worker beside a wedged buffer, in `Read` or `Scan`, reads, goes back to `Read`, exits, or has no step. -/
theorem workerStep_of_wedged {s : State} (h : Wedged s.cfg s.pump.rxBuf = true) (ha : s.pump.alive = true)
    (hit : s.pump.it = .read ∨ s.pump.it = .scan) : ∃ t, workerStep s = .done t ∧ StaysWedged s t := by
  cases hf : s.pump.faulted with
  | true => exact ⟨s, workerStep_of_faulted hf, rfl, List.prefix_rfl, hit, .refl _, .refl _, rfl⟩
  | false =>
    rcases hit with hread | hscan
    · refine ⟨_, workerStep_of_read ha hf hread, ?_⟩
      split
      · exact ⟨rfl, List.prefix_rfl, .inl hread, .refl _, .refl _, rfl⟩
      · exact readStep_staysWedged hread
    · refine ⟨_, (workerStep_of_scan ha hf hscan).trans (scanStep_of_wedged h), ?_⟩
      exact ⟨rfl, List.prefix_rfl, .inl rfl, .refl _, .refl _, rfl⟩

/-- Callers only take entries out of the queues. -/
theorem queues_keptByCallers (msgQ ackQ : List Entry) :
    KeptByCallers (fun s => List.Sublist s.pump.msgQ msgQ ∧ List.Sublist s.pump.ackQ ackQ) where
  instr i := by
    constructor
    case ackQ =>
      rintro s a e b hq ⟨hm, ha⟩
      exact ⟨hm, ((List.sublist_cons_self e b).append_left a).trans (hq ▸ ha)⟩
    case msgQ =>
      rintro s a e b hq ⟨hm, ha⟩
      exact ⟨((List.sublist_cons_self e b).append_left a).trans (hq ▸ hm), ha⟩
    all_goals intros; assumption
  entry _ _ _ _ h := h

/-- The steps of the callers leave the framer alone. -/
theorem CallerStep.staysWedged {s t : State} {ev : Event} {rest : List Event} (h : CallerStep s ev rest t)
    (hcfg : t.cfg = s.cfg) (hit : s.pump.it = .read ∨ s.pump.it = .scan) : StaysWedged s t := by
  obtain ⟨hbuf, hit', hlsn⟩ := (framer_keptByCallers _ _ _).step h ⟨rfl, rfl, rfl⟩
  obtain ⟨hmsg, hack⟩ := (queues_keptByCallers _ _).step h ⟨.refl _, .refl _⟩
  exact ⟨hcfg, hbuf ▸ List.prefix_rfl, hit' ▸ hit, hmsg, hack, hlsn⟩

/-- A step of any agent but block reset. -/
theorem step_staysWedged {s t : State} (hw : Wedged s.cfg s.pump.rxBuf = true) (ha : s.pump.alive = true)
    (hit : s.pump.it = .read ∨ s.pump.it = .scan) (hreset : ∀ ev ∈ s.inputs.head?, ev.agent ≠ .blockReset)
    (h : step s = .next t) : StaysWedged s t := by
  cases hin : s.inputs with
  | nil =>
    simp only [step, fetch, hin] at h
    cases h
    exact ⟨rfl, List.prefix_rfl, hit, .refl _, .refl _, rfl⟩
  | cons ev rest =>
    obtain ⟨ag, a⟩ := ev
    by_cases hpump : ag = .pump
    · subst hpump
      obtain ⟨u, hu, hstays⟩ := workerStep_of_wedged (s := turnTaken s s.turn.port a rest) hw ha hit
      rw [step_of_pump_done hin hu] at h
      cases h
      exact ⟨hstays.cfg, hstays.buf, hstays.it, hstays.msgQ, hstays.ackQ, hstays.lsn⟩
    · have hnot : ag ≠ .blockReset := hreset ⟨ag, a⟩ (by rw [hin]; rfl)
      exact (callerStep_of_step hin hpump hnot h).staysWedged (stepKeepsTheParameters s t h) hit

/-- Settles O26: the buffer that is left begins with the wedged one, so it is wedged. -/
theorem framerStaysWedged : Obligations.FramerStaysWedged := by
  intro s t hw ha hit hreset h
  obtain ⟨hcfg, ⟨more, hmore⟩, hit', hmsg, hack, hlsn⟩ := step_staysWedged hw ha hit hreset h
  refine ⟨⟨more, hmore⟩, ?_, hit', hmsg, hack, hlsn⟩
  rw [hcfg, ← hmore]
  exact wedged_append hw more

end Sys2Proof.Machine
end

section
/-! PROOFS for 42_pump.md. What opens a channel slot (O30): the step of a `CH.OPEN` that takes a success ack, and nothing else. -/

namespace Sys2Proof.Machine

open Sys2Proof.Claims

/-! ## Open slots -/

/-- Slot `j` of the current table is `Open`. -/
def Node.Open (n : Node) (j : Nat) : Prop := (n.chans[j]?).map (fun c => c.state) = some .opened

/-- A write of a slot's state opens that slot, if it is `Open` that is written, and no other. -/
theorem Node.open_setChanState {n : Node} {ch j : Nat} {st : ChanState} (h : (n.setChanState ch st).Open j) :
    n.Open j ∨ (ch = j ∧ st = .opened) := by
  rw [Node.Open, Node.setChanState, List.getElem?_modify, Option.map_eq_map, Option.map_map] at h
  obtain ⟨c, hc, hopen⟩ := Option.map_eq_some_iff.1 h
  rw [Function.comp_apply] at hopen
  split at hopen
  · next hj => exact .inr ⟨hj, hopen⟩
  · exact .inl (Option.map_eq_some_iff.2 ⟨c, hc, hopen⟩)

theorem Node.open_setCbs {n : Node} {ch j : Nat} {f : List Nat → List Nat} (h : (n.setCbs ch f).Open j) : n.Open j := by
  rw [Node.Open, Node.setCbs, List.getElem?_modify, Option.map_eq_map, Option.map_map] at h
  obtain ⟨c, hc, hopen⟩ := Option.map_eq_some_iff.1 h
  rw [Function.comp_apply] at hopen
  refine Option.map_eq_some_iff.2 ⟨c, hc, ?_⟩
  split at hopen <;> exact hopen

/-- New slots are free (43_node.md R256). -/
theorem not_open_allocateChannels (s : State) (count j : Nat) : ¬ (allocateChannels count s).node.Open j := by
  intro h
  obtain ⟨c, hc, hopen⟩ := Option.map_eq_some_iff.1 h
  obtain ⟨i, -, rfl⟩ := List.mem_map.1 (List.mem_of_getElem? hc)
  cases hopen

/-- An instruction that writes no `Open` opens no slot. -/
theorem notOpen_kept {i : Instr} (hi : i.slotState? ≠ some .opened) (j : Nat) : Kept i (fun s => ¬ s.node.Open j) := by
  constructor
  case allocate => exact fun _ s c _ _ => not_open_allocateChannels s c.toNat j
  case chanState =>
    intro st hst s ch hs hopen
    rcases Node.open_setChanState hopen with h | ⟨-, rfl⟩
    · exact hs h
    · exact hi hst
  case addCb | dropCb => exact fun _ _ _ s hs hopen => hs (Node.open_setCbs hopen)
  all_goals intros; assumption

/-! ## `CH.OPEN` -/

theorem Instr.eq_chOpen_of_slotState? {i : Instr} (h : i.slotState? = some .opened) : ∃ ch, i = .chOpen ch := by
  cases i <;> first | exact ⟨_, rfl⟩ | cases h

/-- Step H1 leaves the node as it is (44_channel.md R281). -/
theorem issueChannel_node (ch : Nat) (ranges : List (OperandName × Nat × Nat)) (required : ChanState) (opc : Byte)
    (payload : Except Err Bytes) (s : State) : (issueChannel ch ranges required opc payload s).node = s.node := by
  unfold issueChannel
  split
  · rfl
  split
  · rfl
  split
  · rfl
  split
  · rfl
  rcases sendFrame_cases opc _ _ s with ⟨n, -, -, e⟩ | ⟨-, e⟩ <;> rw [e] <;> rfl

/-- Either no entry is an ack of the opcode, or one is the most recent. -/
theorem no_ack_or_firstIn (opc : Nat) (q : List Entry) :
    (∀ e ∈ q, ¬ IsAckOf opc e) ∨ ∃ a e b, FirstIn (IsAckOf opc) q a e b := by
  have hmatch (e : Entry) : ackMatch opc e = false ↔ ¬ IsAckOf opc e := by rw [← ackMatch_iff, Bool.not_eq_true]
  rcases qTake_cases (ackMatch opc) q with ⟨-, hno⟩ | ⟨a, e, b, hq, ha, he, -⟩
  · exact .inl fun e he => (hmatch e).1 (hno e he)
  · exact .inr ⟨a, e, b, hq, fun x hx => (hmatch x).1 (ha x hx), (ackMatch_iff opc e).1 he⟩

theorem finishChannel_pump (next : Option ChanState) (s : State) : (finishChannel next s).pump = s.pump := by
  unfold finishChannel
  split <;> rfl

/-- The end of a `CH.OPEN` opens the slot its sequencer names. -/
theorem seq_ch_of_finishChannel_open {s : State} {j : Nat} (h : (finishChannel (some .opened) s).node.Open j)
    (hno : ¬ s.node.Open j) : s.seq.ch = some j := by
  cases hch : s.seq.ch with
  | none =>
    simp only [finishChannel, hch] at h
    exact absurd h hno
  | some ch =>
    simp only [finishChannel, hch] at h
    rcases Node.open_setChanState h with h | ⟨rfl, -⟩
    · exact absurd h hno
    · rfl

/-- How a `CH.OPEN` that goes from `s` to `t` opens slot `j`: it waits for its ack with sequencer `q`, which names the slot, and takes
the most recent ack for 0x4B, a success (44_channel.md R290, R291). -/
structure OpensOnAck (s t : State) (ch j : Nat) (q : Seq) (x : List Entry) (e : Entry) (y : List Entry) : Prop where
  seq : s.seqs[s.turn.port]? = some q
  op : q.op = some (.chOpen ch)
  phase : q.phase = .waitAck
  slot : q.ch = some j
  ack : FirstIn (IsAckOf 0x4B) s.pump.ackQ x e y
  taken : t.pump.ackQ = x ++ y
  code : e.payload.getD 2 0 = s.cfg.responseNoError

/-- A `CH.OPEN` opens a slot with its ack: its issue leaves the node alone, and a failure ack raises. -/
theorem exec_chOpen_opens {s t : State} {ch j : Nat} (he : exec (.chOpen ch) s = .next t) (hopen : t.node.Open j)
    (hno : ¬ s.node.Open j) : ∃ q x e y, OpensOnAck s t ch j q x e y := by
  rcases onPort_cases he with rfl | ⟨q, -, -, -, rfl⟩ | ⟨q, hq, hbusy, hop, rfl⟩
  · exact absurd hopen hno
  · rw [issueChannel_node] at hopen
    exact absurd hopen hno
  · cases hphase : q.phase with
    | waitAck =>
      rw [hphase] at hopen
      simp only [channelResume] at hopen ⊢
      rcases no_ack_or_firstIn (0x4B : Byte).toNat s.pump.ackQ with hnone | ⟨x, e, y, hack⟩
      · rw [channelAcked_of_no_ack hnone] at hopen
        exact absurd hopen hno
      by_cases hcode : e.payload.getD 2 0 = s.cfg.responseNoError
      · rw [channelAcked_of_success hack hcode] at hopen ⊢
        have hslot : (ackTaken s x y).seq.ch = some j := seq_ch_of_finishChannel_open hopen hno
        rw [State.seq_of_getElem? (s := ackTaken s x y) hq] at hslot
        have htaken : (finishChannel (some .opened) (ackTaken s x y)).pump = (ackTaken s x y).pump := finishChannel_pump _ _
        exact ⟨q, x, e, y, hq, hop, hphase, hslot, hack, congrArg Pump.ackQ htaken, hcode⟩
      · rw [channelAcked_of_failure hack hcode] at hopen
        exact absurd hopen hno
    | idle | waitClosed | waitMsg | waitPumpUp | waitPumpDown | settle | negKeys | faulted =>
      rw [hphase] at hopen
      exact absurd hopen hno

/-- What an operation does that opens a slot. -/
theorem exec_opens {i : Instr} {s t : State} {j : Nat} (hc : i.isCommand = true) (he : exec i s = .next t)
    (hopen : t.node.Open j) (hno : ¬ s.node.Open j) : ∃ ch q x e y, OpensOnAck s t ch j q x e y := by
  by_cases hi : i.slotState? = some .opened
  · obtain ⟨ch, rfl⟩ := Instr.eq_chOpen_of_slotState? hi
    exact ⟨ch, exec_chOpen_opens he hopen hno⟩
  · exact absurd hopen ((notOpen_kept hi j).exec hc hno he)

/-- Settles O30: the pump agent writes no node, block reset leaves no slot, and of the callers' steps only an operation in progress
opens one. -/
theorem channelOpensOnlyOnItsAck : Obligations.ChannelOpensOnlyOnItsAck := by
  intro s t j h hopen hno
  cases hin : s.inputs with
  | nil =>
    simp only [step, fetch, hin] at h
    cases h
    exact absurd hopen hno
  | cons ev rest =>
    obtain ⟨ag, a⟩ := ev
    by_cases hpump : ag = .pump
    · subst hpump
      obtain ⟨p, lsn, trace, rfl⟩ := step_pumpWrites hin h
      exact absurd hopen hno
    by_cases hreset : ag = .blockReset
    · subst hreset
      rw [blockResetStep s a rest hin] at h
      cases h
      cases hopen
    cases callerStep_of_step hin hpump hreset h with
    | issued k i _ hc hidle he =>
      obtain ⟨ch, q, x, e, y, hq, -, hphase, -⟩ := exec_opens hc he hopen hno
      rw [State.seq_of_getElem? hq, hphase] at hidle
      cases hidle
    | resumed k i hag hc _ he =>
      obtain ⟨ch, q, x, e, y, hq, hop, hphase, hslot, hack, htaken, hcode⟩ := exec_opens hc he hopen hno
      cases hag
      exact ⟨k, q, a, rest, x, y, e, ch, rfl, hq, hop, hphase, hslot, hack, htaken, hcode⟩
    | held k h =>
      subst h
      exact absurd hopen hno
    | transport isOpen h =>
      subst h
      exact absurd hopen hno

end Sys2Proof.Machine
end

section
/-! PROOFS for 43_node.md. Who writes `N.state` (O31), what NODE.STOP leaves as it is (O32), and the slot lookups (O54). -/

namespace Sys2Proof.Machine

open Sys2Proof.Claims

/-! ## `N.state` -/

/-- `N.state` stays as it was, or is what the instruction writes there (43_node.md R250). -/
theorem nodeState_kept (i : Instr) (st : NodeState) :
    Kept i (fun s => s.node.state = st ∨ i.nodeState? = some s.node.state) := by
  constructor
  case nodeState => exact fun _ hst _ _ => .inr hst
  all_goals intros; assumption

theorem Instr.eq_nodeStart_or_nodeStop {i : Instr} {st : NodeState} (h : i.nodeState? = some st) :
    (i = .nodeStart ∧ st = .running) ∨ ((∃ r, i = .nodeStop r) ∧ st = .stopped) := by
  cases i with
  | nodeStart => cases h; exact .inl ⟨rfl, rfl⟩
  | nodeStop r => cases h; exact .inr ⟨⟨r, rfl⟩, rfl⟩
  | _ => cases h

/-- Settles O31: an operation writes `N.state` by `nodeState_kept`, and a frame writes the pump only. -/
theorem nodeStateMoves : Obligations.NodeStateMoves := by
  intro i s t he hne
  cases hc : i.isCommand with
  | false =>
    obtain ⟨p, rfl⟩ := exec_frame hc he
    exact absurd rfl hne
  | true =>
    have hstate : t.node.state = s.node.state ∨ i.nodeState? = some t.node.state :=
      (nodeState_kept i s.node.state).exec hc (.inl rfl) he
    exact Instr.eq_nodeStart_or_nodeStop (hstate.resolve_left hne)

/-! ## What NODE.STOP leaves -/

/-- From `s` to `t` nothing of the node has been written but `N.state`, and nothing of the pump but `E.running` and `E.stopReq`
(43_node.md R253). -/
structure StopWrites (s t : State) : Prop where
  node : t.node = { s.node with state := t.node.state }
  pump : t.pump = { s.pump with running := t.pump.running, stopReq := t.pump.stopReq }

theorem StopWrites.refl (s : State) : StopWrites s s := ⟨rfl, rfl⟩

section
variable {s u : State} (h : StopWrites s u)
include h

/-- A write of another part of the state. -/
theorem StopWrites.congr {v : State} (hnode : v.node = u.node) (hpump : v.pump = u.pump) : StopWrites s v where
  node := by rw [hnode]; exact h.node
  pump := by rw [hpump]; exact h.pump

theorem StopWrites.withNodeState (st : NodeState) : StopWrites s (u.withNode { u.node with state := st }) :=
  ⟨congrArg (fun n => { n with state := st }) h.node, h.pump⟩

theorem StopWrites.signalStop : StopWrites s (u.withPump u.pump.signalStop) :=
  have hpump := congrArg Pump.signalStop h.pump
  ⟨h.node, hpump⟩

theorem StopWrites.confirmStop : StopWrites s (u.withPump u.pump.confirmStop) :=
  have hpump := congrArg Pump.confirmStop h.pump
  ⟨h.node, hpump⟩

/-- Step T3, whether or not the transport closes. -/
theorem StopWrites.nodeStopFinish : StopWrites s (nodeStopFinish u) := by
  have hstopped := h.withNodeState .stopped
  unfold Machine.nodeStopFinish
  rcases transportClose_cases (u.withNode { u.node with state := .stopped }) with ⟨-, -, e⟩ | ⟨-, e⟩ <;> rw [e]
  · exact hstopped.congr rfl rfl
  · exact hstopped.congr rfl rfl

theorem StopWrites.nodeStopSignal : StopWrites s (nodeStopSignal u) := by
  unfold Machine.nodeStopSignal
  split
  · exact h.signalStop.congr rfl rfl
  · exact h.nodeStopFinish

/-- Step T1, whether or not the node runs and the reset frame is written. -/
theorem StopWrites.nodeStopIssue (reset : Bool) : StopWrites s (nodeStopIssue reset u) := by
  by_cases hrun : u.node.state = .running
  · rw [nodeStopIssue_of_running hrun]
    cases reset with
    | false => exact h.nodeStopSignal
    | true =>
      rw [if_pos rfl, sendReset]
      rcases sendFrame_cases 0x4A resetPayload Machine.nodeStopSignal u with ⟨n, -, -, e⟩ | ⟨-, e⟩ <;> rw [e]
      · exact StopWrites.nodeStopSignal (h.congr rfl rfl)
      · exact h.congr rfl rfl
  · rw [nodeStopIssue_of_not_running hrun]
    exact h.congr rfl rfl

/-- Steps T2 and T3. -/
theorem StopWrites.nodeDown : StopWrites s (nodeDown u) := by
  cases ha : u.pump.alive with
  | true => rwa [nodeDown_of_alive ha]
  | false =>
    rw [nodeDown_of_not_alive ha]
    exact h.confirmStop.nodeStopFinish

end

/-- Every step of NODE.STOP. -/
theorem exec_nodeStop_writes {r : Option Bool} {s t : State} (he : exec (.nodeStop r) s = .next t) : StopWrites s t := by
  rw [exec, execNodeStop] at he
  rcases onPort_cases he with rfl | ⟨q, -, -, -, rfl⟩ | ⟨q, -, -, -, rfl⟩
  · exact .refl t
  · have hadmitted : StopWrites s (s.beginOp (.nodeStop r)) := (StopWrites.refl s).congr rfl rfl
    exact hadmitted.nodeStopIssue _
  · split
    · exact (StopWrites.refl s).nodeDown
    · exact .refl s

/-- Settles O32: tables, queues, registry and capability registers are among what `StopWrites` leaves (R254). -/
theorem nodeStopKeepsTheTables : Obligations.NodeStopKeepsTheTables := by
  intro r s t he
  obtain ⟨hnode, hpump⟩ := exec_nodeStop_writes he
  rw [hnode, hpump]
  exact ⟨rfl, rfl, rfl, rfl, rfl, rfl, rfl, rfl, rfl, rfl, rfl⟩

/-! ## Slot lookups -/

/-- A lookup by the value of a field finds the lowest index at which the field has it. -/
theorem findIdx?_of_lowest {α β : Type} [DecidableEq β] {f : α → β} {b : β} {l : List α} {j : Nat}
    (hj : (l[j]?).map f = some b) (hlow : ∀ k < j, (l[k]?).map f ≠ some b) :
    l.findIdx? (fun x => decide (f x = b)) = some j := by
  obtain ⟨x, hx, rfl⟩ := Option.map_eq_some_iff.1 hj
  obtain ⟨hlt, rfl⟩ := List.getElem?_eq_some_iff.1 hx
  refine List.findIdx?_eq_some_iff_getElem.2 ⟨hlt, decide_eq_true rfl, fun k hk => ?_⟩
  have hne := hlow k hk
  rw [List.getElem?_eq_getElem (hk.trans hlt), Option.map_some, Ne, Option.some.injEq] at hne
  simpa using hne

theorem findIdx?_of_forall_ne {α β : Type} [DecidableEq β] {f : α → β} {b : β} {l : List α} (h : ∀ x ∈ l, f x ≠ b) :
    l.findIdx? (fun x => decide (f x = b)) = none :=
  List.findIdx?_eq_none_iff.2 fun x hx => decide_eq_false (h x hx)

section
variable {s : State} (hp : PortIdle s)
include hp

/-- NODE.FREECH answers what the lookup of a free slot does (43_node.md R260). -/
theorem exec_nodeFreech_of_some {j : Nat} (h : s.node.freeChannel = some j) :
    exec .nodeFreech s = .next (succeeded s (.num j)) := by
  rw [exec, execNodeFreech, onPort_issue hp, State.beginOp_node, h]
  exact congrArg _ (ok_beginOp s _ _)

theorem exec_nodeFreech_of_none (h : s.node.freeChannel = none) :
    exec .nodeFreech s = .next (failed s (.notFound .channel)) := by
  rw [exec, execNodeFreech, onPort_issue hp, State.beginOp_node, h]
  exact congrArg _ (raise_beginOp s _ _)

/-- NODE.GETKEY answers what the lookup of the name does (R261). -/
theorem exec_nodeGetkey_of_some {name : Bytes} {j : Nat} (h : s.node.networkIndex name = some j) :
    exec (.nodeGetkey name) s = .next (succeeded s (.num j)) := by
  rw [exec, execNodeGetkey, onPort_issue hp, State.beginOp_node, h]
  exact congrArg _ (ok_beginOp s _ _)

theorem exec_nodeGetkey_of_none {name : Bytes} (h : s.node.networkIndex name = none) :
    exec (.nodeGetkey name) s = .next (failed s (.notFound .network)) := by
  rw [exec, execNodeGetkey, onPort_issue hp, State.beginOp_node, h]
  exact congrArg _ (raise_beginOp s _ _)

end

/-- Settles O54: both lookups are by the value of a field. -/
theorem slotLookups : Obligations.SlotLookups := by
  intro s hp
  refine ⟨fun j hj hlow => ?_, fun hno => ?_, fun name => ⟨fun j hj hlow => ?_, fun hno => ?_⟩⟩
  · exact exec_nodeFreech_of_some hp (findIdx?_of_lowest hj hlow)
  · exact exec_nodeFreech_of_none hp (findIdx?_of_forall_ne hno)
  · exact exec_nodeGetkey_of_some hp (findIdx?_of_lowest hj hlow)
  · exact exec_nodeGetkey_of_none hp (findIdx?_of_forall_ne hno)

end Sys2Proof.Machine
end

section
/-! PROOFS for 44_channel.md. Step H1 of the channel commands: its checks in their order (O56), the command it writes (O55). The
callbacks of a slot (O59). -/

namespace Sys2Proof.Machine

open Sys2Proof.Claims

/-! ## The operand ranges -/

theorem rangeError_of_forall_le {ranges : List (OperandName × Nat × Nat)} (h : ∀ e ∈ ranges, e.2.1 ≤ e.2.2) :
    rangeError ranges = none :=
  List.findSome?_eq_none_iff.2 fun e he => if_neg (not_lt.2 (h e he))

/-- The first operand out of range is the one reported, whatever stands behind it (44_channel.md R282). -/
theorem rangeError_of_first {pre post : List (OperandName × Nat × Nat)} {e : OperandName × Nat × Nat}
    (hpre : ∀ x ∈ pre, x.2.1 ≤ x.2.2) (he : e.2.2 < e.2.1) :
    rangeError (pre ++ e :: post) = some (.valueOutOfRange e.1) := by
  have hnone : rangeError pre = none := rangeError_of_forall_le hpre
  rw [rangeError] at hnone ⊢
  rw [List.findSome?_append, hnone, Option.none_or, List.findSome?_cons, if_pos he]

/-! ## Step H1 -/

/-- A caller that waits for the ack of a command it has sent to channel `ch`. -/
def awaitChannelAck (m : Message) (ch : Nat) (s : State) : State := ((s.setReq m).setCh ch).setPhase .waitAck

section
variable {s : State} {ch : Nat} {ranges : List (OperandName × Nat × Nat)} {required : ChanState} {opc : Byte} {slot : ChanSlot}

theorem issueChannel_of_no_slot (h : s.node.chans.length ≤ ch) (payload : Except Err Bytes) :
    issueChannel ch ranges required opc payload s = s.raise (.notFound .channel) := by
  rw [issueChannel, List.getElem?_eq_none h]

variable (hslot : s.node.chans[ch]? = some slot)
include hslot

theorem issueChannel_of_out_of_range {e : Err} (he : rangeError ranges = some e) (payload : Except Err Bytes) :
    issueChannel ch ranges required opc payload s = s.raise e := by
  simp only [issueChannel, hslot, he]

variable (hr : rangeError ranges = none)
include hr

theorem issueChannel_of_payload_error (e : Err) :
    issueChannel ch ranges required opc (.error e) s = s.raise e := by
  simp only [issueChannel, hslot, hr]

theorem issueChannel_of_other_state (hst : slot.state ≠ required) (p : Bytes) :
    issueChannel ch ranges required opc (.ok p) s = s.raise .stateError := by
  simp only [issueChannel, hslot, hr]
  exact if_pos hst

/-- Past its checks H1 sends the command. -/
theorem issueChannel_of_required_state (hst : slot.state = required) (p : Bytes) :
    issueChannel ch ranges required opc (.ok p) s =
      sendFrame opc p (awaitChannelAck { opcode := opc, payload := p } ch) s := by
  simp only [issueChannel, hslot, hr]
  exact if_neg (not_not.2 hst)

end

/-- The end of an issued H1 whose write succeeds. -/
theorem awaitChannelAck_beginOp (s : State) (m : Message) (ch n : Nat) (i : Instr) :
    awaitChannelAck m ch ((sent s (encodeF m.opcode m.payload) n).beginOp i) = commanded s i m (some ch) n := by
  rw [awaitChannelAck, State.beginOp_eq, State.setReq_eq, State.setCh_eq, State.setPhase_eq, State.modifySeq_modifySeq,
    State.modifySeq_modifySeq, State.modifySeq_modifySeq]
  rfl

/-! ## The eight commands by their rows -/

/-- The payload a channel command has to send: its row's, but `CH.ASSIGN` looks its name up (44_channel.md R284). -/
def commandPayload (s : State) (r : ChanRow) : Instr → Except Err Bytes
  | .chAssign ch name ty => assignPayload s ch name ty
  | _ => .ok r.payload

section
variable {s : State} {i : Instr} {net : Nat} {r : ChanRow}

/-- A name that stands at slot `net` first gives the payload of the row. -/
theorem commandPayload_of_namedAt (h : chanRow net i = some r) (hname : NamedAt s net i) :
    commandPayload s r i = .ok r.payload := by
  cases i with
  | chAssign ch name ty =>
    cases h
    obtain ⟨hnet, hlow⟩ := hname
    have hindex : s.node.networkIndex name = some net := findIdx?_of_lowest hnet hlow
    simp only [commandPayload, assignPayload, hindex]
  | _ => rfl

theorem assignPayload_of_unnamed {name : Bytes} (h : ∀ k ∈ s.node.nets, k.name ≠ .text name) (ch ty : Nat) :
    assignPayload s ch name ty = .error (.notFound .network) := by
  have hindex : s.node.networkIndex name = none := findIdx?_of_forall_ne h
  simp only [assignPayload, hindex]

variable (h : chanRow net i = some r) (hp : PortIdle s)
include h hp

/-- Each of the eight commands on an `Idle` port runs H1 with what its row says. -/
theorem exec_issueChannel :
    exec i s = .next (issueChannel r.ch r.ranges r.required r.opc (commandPayload s r i) (s.beginOp i)) := by
  cases i <;> cases h
  all_goals
    simp only [exec]
    exact onPort_issue hp _ _ _

/-- With its name found, its operands in range and its slot in the required state a command is sent. -/
theorem exec_sendsCommand (hname : NamedAt s net i)
    (hst : (s.node.chans[r.ch]?).map (fun c => c.state) = some r.required) (hr : r.InRange) :
    exec i s = .next
      (sendFrame r.opc r.payload (awaitChannelAck { opcode := r.opc, payload := r.payload } r.ch) (s.beginOp i)) := by
  obtain ⟨slot, hslot, hreq⟩ := Option.map_eq_some_iff.1 hst
  rw [exec_issueChannel h hp, commandPayload_of_namedAt h hname,
    issueChannel_of_required_state (s := s.beginOp i) hslot (rangeError_of_forall_le hr) hreq]

end

/-- Settles O55: past its checks H1 sends the row's frame, and what it leaves is `commanded`. -/
theorem channelCommandIsWritten : Obligations.ChannelCommandIsWritten := by
  intro s i net n r h hp hname hst hr hw
  rw [exec_sendsCommand h hp hname hst hr, sendFrame_beginOp_of_writable hw]
  exact congrArg _ (awaitChannelAck_beginOp s { opcode := r.opc, payload := r.payload } r.ch n i)

/-- Settles O56, one check of H1 after the other; the admission leaves no trace in an answer. -/
theorem channelChecksInOrder : Obligations.ChannelChecksInOrder := by
  intro s i net r h hp
  refine ⟨fun hno => ?_, fun hlt => ?_⟩
  · rw [exec_issueChannel h hp, issueChannel_of_no_slot (s := s.beginOp i) hno, raise_beginOp]
  have hslot : (s.beginOp i).node.chans[r.ch]? = some s.node.chans[r.ch] := List.getElem?_eq_getElem hlt
  refine ⟨fun pre e post hsplit hpre he => ?_, fun hr => ?_⟩
  · have hrange : rangeError r.ranges = some (.valueOutOfRange e.1) := hsplit ▸ rangeError_of_first hpre he
    rw [exec_issueChannel h hp, issueChannel_of_out_of_range hslot hrange, raise_beginOp]
  have hrange : rangeError r.ranges = none := rangeError_of_forall_le hr
  refine ⟨fun ch name ty hi hunnamed => ?_, fun hname hst => ?_, fun hname hst hw => ?_⟩
  · have hpay : commandPayload s r i = .error (.notFound .network) := hi ▸ assignPayload_of_unnamed hunnamed ch ty
    rw [exec_issueChannel h hp, hpay, issueChannel_of_payload_error hslot hrange, raise_beginOp]
  · have hother : s.node.chans[r.ch].state ≠ r.required := by simpa [List.getElem?_eq_getElem hlt] using hst
    rw [exec_issueChannel h hp, commandPayload_of_namedAt h hname, issueChannel_of_other_state hslot hrange hother,
      raise_beginOp]
  · rw [exec_sendsCommand h hp hname hst hr, sendFrame_beginOp_of_unwritable hw]

/-! ## Callbacks -/

section
variable {s : State} {ch : Nat}

theorem changeCallbacks_beginOp_of_no_slot (h : s.node.chans.length ≤ ch) (f : List Nat → List Nat) (i : Instr) :
    changeCallbacks ch f (s.beginOp i) = failed s (.notFound .channel) :=
  (if_pos h).trans (raise_beginOp s i _)

theorem changeCallbacks_beginOp_of_slot (h : ch < s.node.chans.length) (f : List Nat → List Nat) (i : Instr) :
    changeCallbacks ch f (s.beginOp i) = succeeded (s.withNode (s.node.setCbs ch f)) .nothing :=
  (if_neg (not_le.2 h)).trans (ok_beginOp (s.withNode (s.node.setCbs ch f)) i _)

variable (hp : PortIdle s)
include hp

/-- CH.REG and CH.UNREG are one step, the change of the slot's callbacks (44_channel.md R299, R300). -/
theorem exec_chReg (cb : Nat) : exec (.chReg ch cb) s = .next
    (changeCallbacks ch (fun cbs => if cbs.contains cb then cbs else cbs ++ [cb]) (s.beginOp (.chReg ch cb))) :=
  onPort_issue hp _ _ _

theorem exec_chUnreg (cb : Nat) : exec (.chUnreg ch cb) s = .next
    (changeCallbacks ch (fun cbs => cbs.filter fun x => decide (x ≠ cb)) (s.beginOp (.chUnreg ch cb))) :=
  onPort_issue hp _ _ _

end

/-- Settles O59: past the table, or the change of the slot's callbacks. -/
theorem callbackRegistration : Obligations.CallbackRegistration := by
  intro s ch cb hp
  rw [exec_chReg hp, exec_chUnreg hp]
  refine ⟨fun hno => ⟨?_, ?_⟩, fun hlt => ⟨?_, ?_⟩⟩
  · rw [changeCallbacks_beginOp_of_no_slot hno]
  · rw [changeCallbacks_beginOp_of_no_slot hno]
  · rw [changeCallbacks_beginOp_of_slot hlt]
    simp only [List.contains_iff_mem]
    rfl
  · rw [changeCallbacks_beginOp_of_slot hlt]
    rfl

end Sys2Proof.Machine
end

section
/-! PROOFS for 60_exceptions.md. Every step answers a next state (O25); the codes of responses (O60); a logger changes nothing but
what it is told (O35). The last is a commuting diagram: to act and to lose the logger come to the same state in either order. It is
shown for each shared operation, then for the instructions, the fetch and the step. -/

namespace Sys2Proof.Machine

open Sys2Proof.Claims

/-! ## A step never stops -/

/-- An instruction is a frame put into dispatch, or an operation on its port. -/
theorem exec_next (i : Instr) (s : State) : ∃ t, exec i s = .next t := by
  cases hf : i.frame? with
  | some e =>
    obtain ⟨k, pay⟩ := e
    rw [Instr.eq_ofFrame_of_frame? hf]
    exact ⟨_, exec_ofFrame k pay s⟩
  | none =>
    cases i <;> cases hf
    all_goals
      unfold exec
      exact onPort_next _ _ _ _ s

/-- Settles O25: the fetch is over with a state, or hands an instruction to `exec`. -/
theorem stepNeverStops : Obligations.StepNeverStops := by
  intro s
  cases h : fetch s with
  | run i u => simpa only [step, h] using exec_next i u
  | done u => exact ⟨u, by rw [step, h]⟩

/-! ## Responses -/

/-- Settles O60: the table of codes, row by row. -/
theorem responseCodes : Obligations.ResponseCodes :=
  ⟨fun _ => rfl, fun _ _ _ _ _ _ _ _ => rfl, rfl, rfl⟩

/-! ## The state without its logger -/

section
variable (s : State)

@[simp] theorem State.withoutLogger_mr : s.withoutLogger.mr = s.mr := rfl
@[simp] theorem State.withoutLogger_pump : s.withoutLogger.pump = s.pump := rfl
@[simp] theorem State.withoutLogger_node : s.withoutLogger.node = s.node := rfl
@[simp] theorem State.withoutLogger_seqs : s.withoutLogger.seqs = s.seqs := rfl
@[simp] theorem State.withoutLogger_turn : s.withoutLogger.turn = s.turn := rfl
@[simp] theorem State.withoutLogger_inputs : s.withoutLogger.inputs = s.inputs := rfl
@[simp] theorem State.withoutLogger_seq : s.withoutLogger.seq = s.seq := rfl

/-- The opcode map does not read the logger flag, so neither does the decoder. -/
@[simp] theorem resolve_withoutLogger (opc : Byte) : resolve s.withoutLogger.cfg opc = resolve s.cfg opc := rfl

@[simp] theorem scanFrames_withoutLogger (fuel : Nat) (buf : Bytes) :
    scanFrames s.withoutLogger.cfg fuel buf = scanFrames s.cfg fuel buf := by
  have hdecode (raw : Bytes) : decode s.withoutLogger.cfg raw = decode s.cfg raw := rfl
  induction fuel generalizing buf with
  | zero => rfl
  | succ fuel ih => simp only [scanFrames, hdecode, ih]

end

/-! ## The calls of the transport -/

section
variable (s : State)

theorem writeResult_withoutLogger (bs : Bytes) : s.withoutLogger.writeResult bs = s.writeResult bs := rfl

theorem transportIsOpen_withoutLogger : s.withoutLogger.transportIsOpen = s.transportIsOpen := rfl

theorem txWrite_withoutLogger (bs : Bytes) :
    s.withoutLogger.txWrite bs = (s.txWrite bs).map id State.withoutLogger := by
  simp only [State.txWrite, State.traceEvent_eq, writeResult_withoutLogger]
  cases s.writeResult bs <;> rfl

theorem transportOpen_withoutLogger : s.withoutLogger.transportOpen = s.transportOpen.map id State.withoutLogger := by
  have hopen : s.withoutLogger.env.tOpen = s.env.tOpen := rfl
  simp only [State.transportOpen, State.traceEvent_eq, hopen, State.withoutLogger_turn]
  split
  · rfl
  split <;> rfl

theorem transportClose_withoutLogger : s.withoutLogger.transportClose = s.transportClose.map id State.withoutLogger := by
  have hopen : s.withoutLogger.env.tOpen = s.env.tOpen := rfl
  simp only [State.transportClose, State.traceEvent_eq, hopen, State.withoutLogger_turn]
  split
  · split <;> rfl
  · rfl

end

/-! ## Shared operations -/

/-- A choice that does not see the logger commutes where its two branches do. `drop` takes the logger from what they answer. -/
theorem ite_withoutLogger {α : Type} (drop : α → α) {c : State → Prop} [DecidablePred c] {f g : State → α}
    (hc : ∀ s, c s.withoutLogger ↔ c s) (hf : ∀ s, drop (f s) = f s.withoutLogger)
    (hg : ∀ s, drop (g s) = g s.withoutLogger) (s : State) :
    drop (if c s then f s else g s) = if c s.withoutLogger then f s.withoutLogger else g s.withoutLogger := by
  simp only [hc s]
  split_ifs
  · exact hf s
  · exact hg s

/-- `f` does the same to a state and to that state without its logger. -/
def LoggerBlind (f : State → State) : Prop := ∀ s, (f s).withoutLogger = f s.withoutLogger

namespace LoggerBlind

section
variable {f g : State → State}

theorem comp (hg : LoggerBlind g) (hf : LoggerBlind f) : LoggerBlind fun s => g (f s) :=
  fun s => (hg (f s)).trans (congrArg g (hf s))

/-- A choice that does not see the logger either. -/
theorem ite {c : State → Prop} [DecidablePred c] (hc : ∀ s, c s.withoutLogger ↔ c s) (hf : LoggerBlind f)
    (hg : LoggerBlind g) : LoggerBlind fun s => if c s then f s else g s :=
  fun s => ite_withoutLogger State.withoutLogger hc hf hg s

end

/-! What writes no TRACE event and reads no parameter commutes by computation. -/

theorem id : LoggerBlind fun s => s := fun _ => rfl
theorem hold (p : Phase) : LoggerBlind (hold p) := fun _ => rfl
theorem modifySeq (f : Seq → Seq) : LoggerBlind fun s => s.modifySeq f := fun _ => rfl
theorem setPhase (p : Phase) : LoggerBlind fun s => s.setPhase p := fun _ => rfl
theorem setReq (m : Message) : LoggerBlind fun s => s.setReq m := fun _ => rfl
theorem setCh (ch : Nat) : LoggerBlind fun s => s.setCh ch := fun _ => rfl
theorem ok (r : Result) : LoggerBlind (State.ok r) := fun _ => rfl
theorem raise (e : Err) : LoggerBlind (State.raise e) := fun _ => rfl

section
variable {go : State → State} (hgo : LoggerBlind go)
include hgo

theorem sendFrame (opc : Byte) (pay : Bytes) : LoggerBlind (sendFrame opc pay go) := by
  intro s
  simp only [Machine.sendFrame, txWrite_withoutLogger]
  rcases s.txWrite (encodeF opc pay) with ⟨_ | _, t⟩
  · exact hgo t
  · rfl

/-- The code an ack is held against is a parameter the logger flag is no part of. -/
theorem unlessRefused (e : Entry) (err : Err) :
    LoggerBlind fun s => if e.code ≠ s.cfg.responseNoError then s.raise err else go s :=
  ite (fun _ => .rfl) (raise err) hgo

end

section
variable {go : Entry → State → State} (hgo : ∀ e, LoggerBlind (go e))
include hgo

theorem takeAck (opc : Nat) : LoggerBlind (takeAck opc go) := by
  intro s
  simp only [Machine.takeAck, State.withoutLogger_pump]
  split
  · rfl
  · exact hgo _ _

theorem takeMsg (k : Kind) : LoggerBlind (takeMsg k go) := by
  intro s
  simp only [Machine.takeMsg, State.withoutLogger_pump]
  split
  · rfl
  · exact hgo _ _

end

/-! ## Codec and variant operations -/

theorem withMessage {go : Byte → Bytes → State → State} (hgo : ∀ opc pay, LoggerBlind (go opc pay)) :
    LoggerBlind (withMessage go) := by
  intro s
  simp only [Machine.withMessage, State.withoutLogger_mr]
  split
  · exact hgo _ _ s
  · rfl

theorem respondKind (opc : Byte) : LoggerBlind (respondKind opc) := by
  intro s
  simp only [Machine.respondKind, resolve_withoutLogger]
  split <;> rfl

theorem withField {go : Kind → Nat → FieldType → State → State} (hgo : ∀ k o ty, LoggerBlind (go k o ty)) (f : FieldName) :
    LoggerBlind (withField f go) := by
  intro s
  simp only [Machine.withField, State.withoutLogger_mr, resolve_withoutLogger]
  split
  · rfl
  split
  · rfl
  split
  · rfl
  · exact hgo _ _ _ s

/-! ## Node operations -/

theorem pushKey (idx : Nat) : LoggerBlind (pushKey idx) := by
  intro s
  simp only [Machine.pushKey, State.withoutLogger_node]
  split
  · rfl
  · exact ((setPhase .waitAck).comp (setReq _)).sendFrame _ _ s

theorem issueSetKey (idx : Nat) (replacement : Option (Bytes × Bytes)) : LoggerBlind (issueSetKey idx replacement) := by
  refine ite (fun _ => .rfl) (raise _) ?_
  rcases replacement with _ | ⟨name, key⟩
  · exact pushKey idx
  · exact ite (fun _ => .rfl) (raise _) (comp (pushKey idx) fun _ => rfl)

theorem keyAcked {go : State → State} (hgo : LoggerBlind go) (idx : Nat) : LoggerBlind (keyAcked idx go) :=
  takeAck (fun e => unlessRefused (hgo.comp (f := fun s => s.withNode (s.node.stamp idx)) fun _ => rfl) e _) _

theorem capsRequest : LoggerBlind capsRequest := by
  intro s
  simp only [Machine.capsRequest, State.withoutLogger_node]
  split
  · rfl
  · rfl
  · exact sendFrame (setPhase _) _ _ s

theorem capsReply : LoggerBlind capsReply := by
  refine takeMsg (fun e => ?_) _
  exact fun _ => rfl

theorem capsFinish : LoggerBlind capsFinish := by
  intro s
  simp only [Machine.capsFinish, State.withoutLogger_node]
  split <;> rfl

theorem capsPush : LoggerBlind capsPush := by
  intro s
  have hpush (n : Nat) : LoggerBlind fun s => if s.seq.i = n then Machine.capsFinish s else Machine.issueSetKey s.seq.i none s :=
    ite (fun _ => .rfl) capsFinish fun s => issueSetKey s.seq.i none s
  simp only [Machine.capsPush, State.withoutLogger_node]
  split
  · rfl
  · exact hpush _ s

theorem capsKeyAcked : LoggerBlind capsKeyAcked := fun s => keyAcked (modifySeq _) s.seq.i s

theorem capsResume (p : Phase) : LoggerBlind (capsResume p) := by
  cases p
  case waitMsg => exact capsReply
  case negKeys => exact capsPush
  case waitAck => exact capsKeyAcked
  all_goals exact id

theorem nodeStartIssue : LoggerBlind nodeStartIssue := by
  intro s
  simp only [Machine.nodeStartIssue, sendReset, State.withoutLogger_node, transportIsOpen_withoutLogger,
    transportOpen_withoutLogger]
  split
  · rfl
  all_goals
    split
    · rfl
    · exact sendFrame (setPhase _) _ _ s
    · rcases s.transportOpen with ⟨_ | _, t⟩
      · exact sendFrame (setPhase _) _ _ t
      · rfl

theorem nodeSettled : LoggerBlind nodeSettled := by
  have hspawn : LoggerBlind fun s => if s.pump.running then s else s.withPump s.pump.spawn :=
    ite (fun _ => .rfl) id fun _ => rfl
  exact (setPhase .waitPumpUp).comp hspawn

theorem nodeUp : LoggerBlind nodeUp :=
  ite (fun _ => .rfl) (comp capsRequest fun _ => rfl) id

theorem nodeStopFinish : LoggerBlind nodeStopFinish := by
  intro s
  have hstop : s.withoutLogger.withNode { s.withoutLogger.node with state := .stopped }
      = (s.withNode { s.node with state := .stopped }).withoutLogger := rfl
  simp only [Machine.nodeStopFinish, hstop, transportClose_withoutLogger]
  rcases (s.withNode { s.node with state := .stopped }).transportClose with ⟨_ | _, t⟩ <;> rfl

theorem nodeStopSignal : LoggerBlind nodeStopSignal :=
  ite (fun _ => .rfl) (fun _ => rfl) nodeStopFinish

theorem nodeStopIssue (reset : Bool) : LoggerBlind (nodeStopIssue reset) := by
  intro s
  simp only [Machine.nodeStopIssue, State.withoutLogger_node]
  split
  · rfl
  · rfl
  split_ifs
  · exact sendFrame nodeStopSignal _ _ s
  · exact nodeStopSignal s

theorem nodeDown : LoggerBlind nodeDown :=
  ite (fun _ => .rfl) id (comp nodeStopFinish fun _ => rfl)

/-! ## Channel operations -/

theorem finishChannel (next : Option ChanState) : LoggerBlind (finishChannel next) := by
  intro s
  simp only [Machine.finishChannel, State.withoutLogger_seq]
  split <;> rfl

theorem channelAcked {go : State → State} (hgo : LoggerBlind go) (opc : Byte) (op : ChannelOp) :
    LoggerBlind (channelAcked opc op go) :=
  takeAck (fun e => unlessRefused hgo e _) _

theorem channelResume (opc : Byte) (op : ChannelOp) (next : Option ChanState) (p : Phase) :
    LoggerBlind (channelResume opc op next p) := by
  cases p
  case waitAck => exact channelAcked (finishChannel next) opc op
  all_goals exact id

theorem closeTaken (e : Entry) : LoggerBlind (closeTaken e) :=
  ite (fun _ => .rfl) (finishChannel _) id

theorem issueChannel (ch : Nat) (ranges : List (OperandName × Nat × Nat)) (required : ChanState) (opc : Byte)
    (payload : Except Err Bytes) : LoggerBlind (issueChannel ch ranges required opc payload) := by
  intro s
  simp only [Machine.issueChannel, State.withoutLogger_node]
  split
  · rfl
  split
  · rfl
  split
  · rfl
  split_ifs
  · rfl
  · exact ((setPhase .waitAck).comp ((setCh ch).comp (setReq _))).sendFrame _ _ s

theorem changeCallbacks (ch : Nat) (f : List Nat → List Nat) : LoggerBlind (changeCallbacks ch f) :=
  ite (fun _ => .rfl) (raise _) fun _ => rfl

end LoggerBlind

/-! ## Instructions -/

/-- A port's answer, its state without the logger. -/
def Answer.withoutLogger : Answer → Answer
  | .next s => .next s.withoutLogger
  | .fault f => .fault f
  | .refused r => .refused r

theorem onPort_withoutLogger {issue : State → State} {resume : Phase → State → State} (hissue : LoggerBlind issue)
    (hresume : ∀ p, LoggerBlind (resume p)) (i : Instr) (accepted : Bool) (s : State) :
    Answer.withoutLogger (onPort i accepted issue resume s) = onPort i accepted issue resume s.withoutLogger := by
  simp only [onPort, State.withoutLogger_seqs, State.withoutLogger_turn]
  split
  · rfl
  split_ifs
  · exact congrArg Host.Outcome.next (hissue (s.beginOp i))
  · rfl
  · exact congrArg Host.Outcome.next (hresume _ s)
  · rfl

/-- What an operation does to its port is built of what does not see the logger. -/
theorem exec_withoutLogger_of_command {i : Instr} (hf : i.frame? = none) (s : State) :
    Answer.withoutLogger (exec i s) = exec i s.withoutLogger := by
  cases i
  all_goals simp only [Instr.frame?, reduceCtorEq] at hf
  all_goals
    clear hf
    unfold exec
    refine onPort_withoutLogger ?_ ?_ _ _ s
  -- operations of one step have none to resume; channel commands share H1 and H2
  all_goals try exact LoggerBlind.hold
  all_goals try exact LoggerBlind.issueChannel _ _ _ _ _
  all_goals try exact LoggerBlind.channelResume _ _ _
  case msgNew.refine_1 => exact .ite (fun _ => .rfl) (.raise _) (.ite (fun _ => .rfl) (.raise _) fun _ => rfl)
  case msgSetop.refine_1 | msgSetpay.refine_1 => exact .ite (fun _ => .rfl) (.raise _) fun _ => rfl
  case msgEncode.refine_1 | msgChecksum.refine_1 => exact .withMessage fun _ _ => .ok _
  case msgDecode.refine_1 raw => cases decodeF raw <;> exact fun _ => rfl
  case msgResolve.refine_1 => exact .ite (fun _ => .rfl) (.raise _) (.respondKind _)
  case msgResolveMr.refine_1 =>
    intro s
    simp only [State.withoutLogger_mr]
    split
    · rfl
    · exact LoggerBlind.respondKind _ s
  case varBuild.refine_1 k vs => cases k.buildError vs <;> exact fun _ => rfl
  case varGet.refine_1 =>
    refine .withField (fun k o ty s => ?_) _
    simp only [State.withoutLogger_mr]
    split
    · rfl
    split <;> rfl
  case varSet.refine_1 f v =>
    refine .withField (fun k o ty s => ?_) _
    simp only [State.withoutLogger_mr]
    split
    · rfl
    split
    · rfl
    split <;> rfl
  case pumpStart.refine_1 => exact .ite (fun _ => .rfl) (.ok _) fun _ => rfl
  case pumpStart.refine_2 =>
    intro p
    cases p with
    | waitPumpUp => exact .ite (fun _ => .rfl) (.ok _) .id
    | _ => exact .id
  case pumpStop.refine_1 => exact .ite (fun _ => .rfl) (fun _ => rfl) (.ok _)
  case pumpStop.refine_2 =>
    intro p
    cases p with
    | waitPumpDown => exact .ite (fun _ => .rfl) .id fun _ => rfl
    | _ => exact .id
  case pumpReg.refine_1 | pumpUnreg.refine_1 => exact fun _ => rfl
  case pumpWrite.refine_1 => exact .withMessage fun _ _ => .sendFrame (.ok _) _ _
  case pumpWaitack.refine_1 => exact .ite (fun _ => .rfl) (.raise _) (.setPhase _)
  case pumpWaitack.refine_2 =>
    intro p
    cases p with
    | waitAck => exact .takeAck (fun _ => .ok _) _
    | _ => exact .id
  case pumpWaitmsg.refine_1 kind => cases kindOfNumber kind <;> exact fun _ => rfl
  case pumpWaitmsg.refine_2 =>
    intro p
    split
    · exact .takeMsg (fun _ => .ok _) _
    · exact .id
  case nodeStart.refine_1 => exact .nodeStartIssue
  case nodeStart.refine_2 =>
    intro p
    cases p with
    | settle => exact .nodeSettled
    | waitPumpUp => exact .nodeUp
    | waitMsg | negKeys | waitAck => exact .capsResume _
    | _ => exact .id
  case nodeStop.refine_1 => exact .nodeStopIssue _
  case nodeStop.refine_2 =>
    intro p
    cases p with
    | waitPumpDown => exact .nodeDown
    | _ => exact .id
  case nodeCaps.refine_1 => exact .capsRequest
  case nodeCaps.refine_2 => exact .capsResume
  case nodeSetkey.refine_1 => exact .issueSetKey _ _
  case nodeSetkey.refine_2 =>
    intro p
    cases p with
    | waitAck => exact .keyAcked (.ok _) _
    | _ => exact .id
  case nodeFreech.refine_1 | nodeGetkey.refine_1 =>
    intro s
    simp only [State.withoutLogger_node]
    split <;> rfl
  case chAssign.refine_1 ch name type =>
    exact fun s => LoggerBlind.issueChannel ch _ _ _ (assignPayload s ch name type) s
  case chClose.refine_2 =>
    intro p
    cases p with
    | waitAck => exact .channelAcked (.setPhase _) _ _
    | waitClosed => exact .takeMsg .closeTaken _
    | _ => exact .id
  case chReg.refine_1 | chUnreg.refine_1 => exact .changeCallbacks _ _

/-- An instruction and the loss of the logger commute. -/
theorem exec_withoutLogger (i : Instr) (s : State) : Answer.withoutLogger (exec i s) = exec i s.withoutLogger := by
  cases hf : i.frame? with
  | some e =>
    obtain ⟨k, pay⟩ := e
    rw [Instr.eq_ofFrame_of_frame? hf, exec_ofFrame, exec_ofFrame]
    rfl
  | none => exact exec_withoutLogger_of_command hf s

/-! ## The pump agent and the schedule -/

/-- What a scheduled step comes to, its state without the logger. -/
def Fetched.withoutLogger : Fetched → Fetched
  | .run i s => .run i s.withoutLogger
  | .done s => .done s.withoutLogger

theorem readStep_loggerBlind : LoggerBlind readStep := by
  intro s
  cases h : s.readResult with
  | got bs => rw [readStep_of_got h, readStep_of_got (s := s.withoutLogger) h]; rfl
  | error => rw [readStep_of_error h, readStep_of_error (s := s.withoutLogger) h]; rfl

theorem invokeListener_loggerBlind (m : Entry) (t : Target) (ts : List Target) : LoggerBlind (invokeListener m t ts) := by
  intro s
  simp only [invokeListener, State.withoutLogger_turn]
  split <;> rfl

theorem deliverStep_loggerBlind (m : Entry) (t : Target) (ts : List Target) : LoggerBlind (deliverStep m t ts) := by
  intro s
  match t with
  | .listener .ackCollector => rw [deliverStep_ackCollector, deliverStep_ackCollector]; rfl
  | .listener .msgCollector => rfl
  | .listener (.channelL g i) => rfl
  | .listener (.external n) => exact invokeListener_loggerBlind m _ ts s
  | .cb g i c => exact invokeListener_loggerBlind m _ ts s

theorem scanStep_withoutLogger (s : State) : (scanStep s).withoutLogger = scanStep s.withoutLogger := by
  simp only [scanStep, State.withoutLogger_pump, scanFrames_withoutLogger]
  split <;> rfl

/-- Without a worker at work, or with no target left, the pump agent has no step (42_pump.md R200). -/
theorem workerStep_of_not_working {s : State} (hb : s.pump.canBegin ≠ true) (hw : s.pump.working ≠ true) :
    workerStep s = .done s :=
  (if_neg hb).trans (if_neg hw)

theorem workerStep_of_no_target {s : State} {m : Entry} (hb : s.pump.canBegin ≠ true) (hit : s.pump.it = .dispatch m []) :
    workerStep s = .done s := by
  rw [workerStep, if_neg hb, hit]
  exact ite_self _

theorem workerStep_withoutLogger (s : State) : (workerStep s).withoutLogger = workerStep s.withoutLogger := by
  by_cases hb : s.pump.canBegin = true
  · rw [workerStep_of_begin hb, workerStep_of_begin (s := s.withoutLogger) hb]
    rfl
  by_cases hw : s.pump.working = true
  · obtain ⟨ha, hf⟩ := s.pump.working_iff.1 hw
    cases hit : s.pump.it with
    | read =>
      have hread : LoggerBlind fun s => if s.pump.stopReq then exitStep s else readStep s :=
        .ite (fun _ => .rfl) (fun _ => rfl) readStep_loggerBlind
      rw [workerStep_of_read ha hf hit, workerStep_of_read (s := s.withoutLogger) ha hf hit]
      exact congrArg Fetched.done (hread s)
    | scan =>
      rw [workerStep_of_scan ha hf hit, workerStep_of_scan (s := s.withoutLogger) ha hf hit]
      exact scanStep_withoutLogger s
    | dispatch m ts =>
      cases ts with
      | nil =>
        rw [workerStep_of_no_target hb hit, workerStep_of_no_target (s := s.withoutLogger) hb hit]
        rfl
      | cons t ts =>
        rw [workerStep_of_dispatch ha hf hit, workerStep_of_dispatch (s := s.withoutLogger) ha hf hit]
        exact congrArg Fetched.done (deliverStep_loggerBlind m t ts s)
  · rw [workerStep_of_not_working hb hw, workerStep_of_not_working (s := s.withoutLogger) hb hw]
    rfl

/-- An agent that runs an instruction where a condition holds, and else does nothing. -/
theorem runOrDone_withoutLogger {c : State → Prop} [DecidablePred c] (hc : ∀ s, c s.withoutLogger ↔ c s) (i : Instr)
    (s : State) : Fetched.withoutLogger (if c s then .run i s else .done s)
      = if c s.withoutLogger then .run i s.withoutLogger else .done s.withoutLogger :=
  ite_withoutLogger Fetched.withoutLogger (f := .run i) (g := .done) hc (fun _ => rfl) (fun _ => rfl) s

theorem requestStep_withoutLogger (i : Instr) (s : State) :
    (requestStep i s).withoutLogger = requestStep i s.withoutLogger :=
  runOrDone_withoutLogger (c := fun s => i.isCommand ∧ s.seq.phase = .idle) (fun _ => .rfl) i s

theorem callerStep_withoutLogger (s : State) : (callerStep s).withoutLogger = callerStep s.withoutLogger := by
  simp only [callerStep, State.withoutLogger_seq]
  split
  · next i _ =>
    exact runOrDone_withoutLogger (c := fun s => i.isCommand ∧ s.seq.phase ≠ .idle) (fun _ => .rfl) i s
  · rfl

theorem fetch_withoutLogger (s : State) : (fetch s).withoutLogger = fetch s.withoutLogger := by
  cases hin : s.inputs with
  | nil => simp only [fetch, State.withoutLogger_inputs, hin, Fetched.withoutLogger]
  | cons ev rest =>
    obtain ⟨ag, a⟩ := ev
    cases ag with
    | request k i =>
      rw [fetch_request hin, fetch_request (s := s.withoutLogger) hin]
      exact requestStep_withoutLogger i (turnTaken s k a rest)
    | caller k =>
      rw [fetch_caller hin, fetch_caller (s := s.withoutLogger) hin]
      exact callerStep_withoutLogger (turnTaken s k a rest)
    | pump =>
      rw [fetch_pump hin, fetch_pump (s := s.withoutLogger) hin]
      exact workerStep_withoutLogger (turnTaken s s.turn.port a rest)
    | blockReset =>
      simp only [fetch, State.withoutLogger_inputs, hin]
      rfl
    | transport isOpen =>
      simp only [fetch, State.withoutLogger_inputs, hin]
      rfl

/-- A step and the loss of the logger commute. -/
theorem step_withoutLogger (s : State) : Answer.withoutLogger (step s) = step s.withoutLogger := by
  rw [step, step, ← fetch_withoutLogger]
  cases fetch s with
  | run i t => exact exec_withoutLogger i t
  | done t => rfl

/-- Settles O35: both steps come, without their loggers, to the step of the one state that the two are without theirs. -/
theorem loggerChangesNothingElse : Obligations.LoggerChangesNothingElse := by
  intro s s' t hs h
  obtain ⟨t', h'⟩ := stepNeverStops s'
  have hnext : Answer.withoutLogger (.next t) = Answer.withoutLogger (.next t') := by
    rw [← h, ← h', step_withoutLogger, step_withoutLogger, hs]
  exact ⟨t', h', Host.Outcome.next.inj hnext⟩

end Sys2Proof.Machine
end
